-- ==== Sys2Proof/Word.lean ====
section
/-! DEFINITION. The words of the block: the 64-bit command word, the 48-bit result, and a group of the four channels. -/

namespace Sys2Proof

/-- A command word as it stands on a port (30_encoding.md R101). -/
abbrev CommandWord := BitVec 64

/-- The 48-bit result of a command (30_encoding.md R104). -/
abbrev ResultWord := BitVec 48

/-- One value for each of the four CV channels, in the order of 00_scope.md R15. A `Quad (BitVec 12)` is a DACState (R14). -/
structure Quad (α : Type) where
  /-- channel 0, oscillator pitch -/
  vco : α
  /-- channel 1, pulse width -/
  pw : α
  /-- channel 2, filter cutoff -/
  vcf : α
  /-- channel 3, amplifier level -/
  vca : α
  deriving DecidableEq, Repr

/-- The same value in all four channels. -/
def Quad.all {α : Type} (x : α) : Quad α := ⟨x, x, x, x⟩

/-- Four CVs of 12 bits: what one slot of the ring, the output and the override hold (00_scope.md R14, R15). -/
abbrev DacState := Quad (BitVec 12)

end Sys2Proof
end

