-- ==== Sys2Proof/Config.lean ====
section
/-! DEFINITION. The configuration record of 00_scope.md R7, its reference value REFCFG (R8, R227), the one uninterpreted configuration
of the machine, and the free value behind the random input (10_state.md R40). -/

namespace Sys2Proof

/-- `N_ENV`, the number of envelopes: 3 (10_state.md R30, 90_conflicts.md C1). -/
abbrev nEnv : Nat := 3

/-- `N_LFO`, the number of LFOs: 2 (10_state.md R36). -/
abbrev nLfo : Nat := 2

/-- The arguments of `VOICE_MIX` (45_voice.md R226). -/
structure VoiceInputs where
  /-- the glide output of this sample -/
  pitch : BitVec 16
  /-- the envelope values of this sample -/
  env : Vector (BitVec 16) nEnv
  /-- the LFO values of this sample -/
  lfo : Vector (BitVec 16) nLfo
  /-- `VOX.VELOCITY` -/
  velocity : BitVec 7
  /-- `VOX.ACCENT` -/
  accent : Bool
  /-- `VOX.CTX` -/
  ctx : Vector (BitVec 8) 32
  deriving DecidableEq, Repr

/-- REFCFG's `VOICE_MIX` (45_voice.md R227). -/
def referenceVoiceMix (x : VoiceInputs) : Quad Int :=
  let e (i : Fin nEnv) : Nat := x.env[i].toNat
  let l (i : Fin nLfo) : Nat := x.lfo[i].toNat
  let c (o : Fin 32) : Nat := x.ctx[o].toNat
  let amt : Nat := min 255 (c 1 + (if x.accent then 64 else 0) + x.velocity.toNat * c 2 / 2 ^ 7)
  { vco := (x.pitch.toNat : Int) + ((l 1 : Int) - 32768) * (c 0 : Int) / 2 ^ 8
    pw := Int.ofNat (e 0 / 2 ^ 5 + l 0 / 2 ^ 5)
    vcf := Int.ofNat (c 3 * 2 ^ 4 + e 1 * amt / 2 ^ 12 + l 0 / 2 ^ 4) - 2048
    vca := Int.ofNat (e 2 * x.velocity.toNat / 2 ^ 11) }

/-- The implementation parameters, with the constraints the rules rely on (00_scope.md R7). The default of each field is its value in
REFCFG (R8), so that `({} : Config)` is REFCFG; no default takes part in the meaning of `config` below (PRESUMED, notes/assumptions/15.md; safe). -/
structure Config where
  /-- `ENV_INC_LUT`, 256 entries of u32 (20_memory.md R71) -/
  envIncLut : BitVec 8 → BitVec 32 := fun t => BitVec.ofNat 32 (0x40000000 / 2 ^ (t.toNat / 16))
  /-- `ENV_CURVE`, 256 entries of u16 (20_memory.md R72) -/
  envCurve : BitVec 8 → BitVec 16 := fun i => BitVec.ofNat 16 (65536 - (256 - i.toNat) ^ 2)
  /-- `CLK_TEMPO_FACTOR` (20_memory.md R78) -/
  tempoFactor : Nat := 400000
  /-- the numerator of `F_TICK`, in Hz -/
  tickRateNum : Nat := 40000
  /-- the denominator of `F_TICK` -/
  tickRateDen : Nat := 1
  /-- `N_GROOVE` -/
  nGroove : Nat := 1
  /-- `CLK_GROOVE_LUT[template][step]`, entries of s8 (20_memory.md R73); a template at or above `N_GROOVE` names no entry and is never
  read (R76; notes/assumptions/11.md) -/
  grooveLut : BitVec 8 → BitVec 4 → BitVec 8 := fun _ i => if i.toNat % 2 = 0 then 64 else -64
  /-- `LFO_PLL_SHIFT` -/
  pllShift : Nat := 8
  /-- `LFO_INC_MIN` -/
  lfoIncMin : BitVec 32 := 0x00001000
  /-- `LFO_INC_MAX` -/
  lfoIncMax : BitVec 32 := 0x10000000
  /-- `CV_PITCH_REF`, in units of 1/128 semitone -/
  pitchRef : Int := 6144
  /-- `VOX_ACCENT_BOOST` -/
  accentBoost : Nat := 32
  /-- `VOICE_MIX`, a function of its arguments alone (45_voice.md R226) -/
  voiceMix : VoiceInputs → Quad Int := referenceVoiceMix
  /-- no increment is zero -/
  envIncLut_ne_zero : ∀ t, envIncLut t ≠ 0 := by decide
  /-- a longer time has no larger increment -/
  envIncLut_antitone : ∀ i j, i ≤ j → envIncLut j ≤ envIncLut i := by
    intro i j h
    have hi : ∀ t : BitVec 8, 0x40000000 / 2 ^ (t.toNat / 16) < 2 ^ 32 := fun t =>
      Nat.lt_of_le_of_lt (Nat.div_le_self _ _) (by decide)
    have hij : i.toNat / 16 ≤ j.toNat / 16 := Nat.div_le_div_right h
    simp only [BitVec.le_def, BitVec.toNat_ofNat, Nat.mod_eq_of_lt (hi _)]
    exact Nat.div_le_div_left (Nat.pow_le_pow_right (by decide) hij) (Nat.two_pow_pos _)
  /-- the curve starts at zero -/
  envCurve_zero : envCurve 0 = 0 := by decide
  /-- the curve never decreases -/
  envCurve_mono : ∀ i j, i ≤ j → envCurve i ≤ envCurve j := by
    intro i j h
    have hlt : ∀ t : BitVec 8, 65536 - (256 - t.toNat) ^ 2 < 2 ^ 16 := fun t => by
      have h1 : 1 ≤ 256 - t.toNat := by have := t.isLt; omega
      have h2 : 1 ≤ (256 - t.toNat) ^ 2 := Nat.one_le_pow _ _ h1
      omega
    have hij : (256 - j.toNat) ^ 2 ≤ (256 - i.toNat) ^ 2 :=
      Nat.pow_le_pow_left (Nat.sub_le_sub_left h _) 2
    simp only [BitVec.le_def, BitVec.toNat_ofNat, Nat.mod_eq_of_lt (hlt _)]
    omega
  /-- the tempo factor is a u32 -/
  tempoFactor_lt : tempoFactor < 2 ^ 32 := by decide
  /-- the tick rate is positive -/
  tickRate_pos : 0 < tickRateNum ∧ 0 < tickRateDen := by decide
  /-- `CLK_TEMPO_FACTOR = 10 * F_TICK` -/
  tempoFactor_eq : tempoFactor * tickRateDen = 10 * tickRateNum := by decide
  /-- there is at least one groove template, and at most 256 -/
  nGroove_range : 1 ≤ nGroove ∧ nGroove ≤ 256 := by decide
  /-- the shift is at most 32 -/
  pllShift_le : pllShift ≤ 32 := by decide
  /-- the range of the phase-locked increment is not empty -/
  lfoInc_range : lfoIncMin ≤ lfoIncMax := by decide
  /-- the boost is at most 127 -/
  accentBoost_le : accentBoost ≤ 127 := by decide
  deriving Inhabited

/-- REFCFG (00_scope.md R8, 45_voice.md R227): the configuration of the spec's test vectors. It claims nothing of the real device. -/
def Config.reference : Config := {}

/-- The configuration of the machine: any record that meets the constraints of R7, with no body, so that nothing can be proved of it
but those constraints. DESIGN CHOICE of form (notes/assumptions/1.md); safe. -/
opaque config : Config

/-- The random draws beyond those that the state already fixes: the n-th free draw. No body: nothing is known of any value
(10_state.md R40: "a u16 under no law"). DESIGN CHOICE of form (notes/assumptions/3.md); safe. -/
opaque Config.freeDraw : Nat → BitVec 16

end Sys2Proof
end

