-- ==== Sys2Proof/Syntax.lean ====
section
/-! DEFINITION. The commands of the block as syntax: the ports, the rejection codes, the named operand values, and one constructor of
`Instr` for each row of spec/opcode_table.json. -/

namespace Sys2Proof

/-- The two command ports (30_encoding.md R100). -/
inductive Port
  /-- the control context, the main loop -/
  | C
  /-- the tick context, the interrupt handler -/
  | T
  deriving DecidableEq, Repr

/-- Why a command is rejected (60_exceptions.md R273). -/
inductive Reject
  /-- code 1: the opcode is not in the opcode map -/
  | reservedOpcode
  /-- code 2: an operand is outside its legal range -/
  | reservedOperand
  /-- code 3: the command is not accepted on this port -/
  | wrongPort
  /-- code 4: a must-be-zero bit is 1 -/
  | nonzeroReserved
  /-- code 5: the ring is full at CVD.WRITE or VOX.SAMPLE -/
  | ringFull
  deriving DecidableEq, Repr

/-- The five segments of an envelope, in their order (10_state.md R31). -/
inductive Segment
  | attack
  | decay
  | sustain
  | release
  | dead
  deriving DecidableEq, Repr

/-- The eight shapes of an LFO, in their order (10_state.md R38). -/
inductive Shape
  | triangle
  | square
  | rampUp
  | rampDown
  | sampleAndHold
  | bernouilli
  | lines
  | noise
  deriving DecidableEq, Repr

/-- The forty commands (30_encoding.md R105), each with its operands as the bit fields of R106. An operand outside its legal range is
still a term: the range is the business of `Instr.wellFormed` and of the command's own check 4 (R108). -/
inductive Instr
  | sysNop
  | sysReset
  | sysRdreg (addr : BitVec 16)
  | envInit (e : BitVec 4)
  | envUpdate (e : BitVec 4) (attack decay sustain release : BitVec 8)
  | envTrigger (e : BitVec 4) (seg : BitVec 3)
  | envRender (e : BitVec 4)
  | envGate (e : BitVec 4)
  | lfoInit (l : BitVec 4)
  | lfoSetshape (l : BitVec 4) (shape : BitVec 3)
  | lfoSetinc (l : BitVec 4) (inc : BitVec 32)
  | lfoRender (l : BitVec 4)
  | lfoSync (l : BitVec 4) (step : BitVec 8)
  | clkInit
  | clkUpdate (bpm template amount : BitVec 8)
  | clkSetres (res : BitVec 8)
  | clkTick
  | clkCount
  | gldInit
  | gldSetinc (inc : BitVec 16)
  | gldStart (target : BitVec 16) (g : Bool)
  | gldRender
  | cvdInit
  | cvdSetcal (scaleLow scaleHigh offset : BitVec 16)
  | cvdSetin (c : BitVec 4) (value : BitVec 32)
  | cvdWrite
  | cvdRead
  | cvdReadable
  | cvdWritable
  | cvdLock (vco pw vcf vca : BitVec 12)
  | cvdUnlock
  | voxInit
  | voxGateOn
  | voxGateOff
  | voxNoteOn (note velocity : BitVec 7) (slide accent legato : Bool)
  | voxSample
  | voxRefresh
  | voxSetctx (offset : BitVec 5) (value : BitVec 8)
  | voxSetlegato (flag : Bool)
  | voxRdretrig
  deriving DecidableEq, Repr

end Sys2Proof
end

