-- ==== Sys2Proof/Decode.lean ====
section
/-! DEFINITION. Decoding and encoding of command words (30_encoding.md R101 to R107): the opcode map as a table of rows, the decoder,
total on any 64 bits and on either port, and the encoder written from the same layouts. -/

namespace Sys2Proof

/-! ## The fields of a word -/

/-- `OPC`, bits 63:56 (R101). -/
def opcOf (w : CommandWord) : BitVec 8 := w.extractLsb' 56 8

/-- `IDX`, bits 55:52 (R101). -/
def idxOf (w : CommandWord) : BitVec 4 := w.extractLsb' 52 4

/-- `ARG[lo + len - 1 : lo]` (R101); `ARG` stands in the low 48 bits. -/
def argOf (w : CommandWord) (lo len : Nat) : BitVec len := w.extractLsb' lo len

/-- `ARG[i]` as a boolean (R107). -/
def argFlag (w : CommandWord) (i : Nat) : Bool := w.getLsbD i

/-- A word from its opcode, its `IDX` and its `ARG`, with `RSV` zero (R101). -/
def wordOf (opc : BitVec 8) (idx : BitVec 4) (arg : BitVec 48) : CommandWord := opc ++ idx ++ 0#4 ++ arg

/-! ## The opcode map -/

/-- One row of the opcode map (R105): a word is this command when `w AND mask = pattern`; `cut` takes its operands (R106, R107). -/
structure Row where
  pattern : CommandWord
  mask : CommandWord
  port : Port
  cut : CommandWord → Instr

/-- The opcode of a row. -/
def Row.opc (r : Row) : BitVec 8 := opcOf r.pattern

/-- The SYS rows of R105. -/
def sysRows : List Row :=
  [ ⟨0x0000000000000000, 0xFFFFFFFFFFFFFFFF, .C, fun _ => .sysNop⟩,
    ⟨0x0100000000000000, 0xFFFFFFFFFFFFFFFF, .C, fun _ => .sysReset⟩,
    ⟨0x0200000000000000, 0xFFFFFFFFFFFF0000, .C, fun w => .sysRdreg (argOf w 0 16)⟩ ]

/-- The ENV rows of R105. -/
def envRows : List Row :=
  [ ⟨0x1000000000000000, 0xFF0FFFFFFFFFFFFF, .C, fun w => .envInit (idxOf w)⟩,
    ⟨0x1100000000000000, 0xFF0FFFFF00000000, .C,
      fun w => .envUpdate (idxOf w) (argOf w 0 8) (argOf w 8 8) (argOf w 16 8) (argOf w 24 8)⟩,
    ⟨0x1200000000000000, 0xFF0FFFFFFFFFFFF8, .C, fun w => .envTrigger (idxOf w) (argOf w 0 3)⟩,
    ⟨0x1300000000000000, 0xFF0FFFFFFFFFFFFF, .C, fun w => .envRender (idxOf w)⟩,
    ⟨0x1400000000000000, 0xFF0FFFFFFFFFFFFF, .C, fun w => .envGate (idxOf w)⟩ ]

/-- The LFO rows of R105. -/
def lfoRows : List Row :=
  [ ⟨0x2000000000000000, 0xFF0FFFFFFFFFFFFF, .C, fun w => .lfoInit (idxOf w)⟩,
    ⟨0x2100000000000000, 0xFF0FFFFFFFFFFFF8, .C, fun w => .lfoSetshape (idxOf w) (argOf w 0 3)⟩,
    ⟨0x2200000000000000, 0xFF0FFFFF00000000, .C, fun w => .lfoSetinc (idxOf w) (argOf w 0 32)⟩,
    ⟨0x2300000000000000, 0xFF0FFFFFFFFFFFFF, .C, fun w => .lfoRender (idxOf w)⟩,
    ⟨0x2400000000000000, 0xFF0FFFFFFFFFFF00, .C, fun w => .lfoSync (idxOf w) (argOf w 0 8)⟩ ]

/-- The CLK rows of R105. -/
def clkRows : List Row :=
  [ ⟨0x3000000000000000, 0xFFFFFFFFFFFFFFFF, .C, fun _ => .clkInit⟩,
    ⟨0x3100000000000000, 0xFFFFFFFFFF000000, .C, fun w => .clkUpdate (argOf w 0 8) (argOf w 8 8) (argOf w 16 8)⟩,
    ⟨0x3200000000000000, 0xFFFFFFFFFFFFFF00, .C, fun w => .clkSetres (argOf w 0 8)⟩,
    ⟨0x3300000000000000, 0xFFFFFFFFFFFFFFFF, .T, fun _ => .clkTick⟩,
    ⟨0x3400000000000000, 0xFFFFFFFFFFFFFFFF, .C, fun _ => .clkCount⟩ ]

/-- The GLD rows of R105. -/
def gldRows : List Row :=
  [ ⟨0x4000000000000000, 0xFFFFFFFFFFFFFFFF, .C, fun _ => .gldInit⟩,
    ⟨0x4100000000000000, 0xFFFFFFFFFFFF0000, .C, fun w => .gldSetinc (argOf w 0 16)⟩,
    ⟨0x4200000000000000, 0xFFFFFFFFFFFE0000, .C, fun w => .gldStart (argOf w 0 16) (argFlag w 16)⟩,
    ⟨0x4300000000000000, 0xFFFFFFFFFFFFFFFF, .C, fun _ => .gldRender⟩ ]

/-- The CVD rows of R105. -/
def cvdRows : List Row :=
  [ ⟨0x5000000000000000, 0xFFFFFFFFFFFFFFFF, .C, fun _ => .cvdInit⟩,
    ⟨0x5100000000000000, 0xFFFF000000000000, .C, fun w => .cvdSetcal (argOf w 0 16) (argOf w 16 16) (argOf w 32 16)⟩,
    ⟨0x5200000000000000, 0xFF0FFFFF00000000, .C, fun w => .cvdSetin (idxOf w) (argOf w 0 32)⟩,
    ⟨0x5300000000000000, 0xFFFFFFFFFFFFFFFF, .C, fun _ => .cvdWrite⟩,
    ⟨0x5400000000000000, 0xFFFFFFFFFFFFFFFF, .T, fun _ => .cvdRead⟩,
    ⟨0x5500000000000000, 0xFFFFFFFFFFFFFFFF, .C, fun _ => .cvdReadable⟩,
    ⟨0x5600000000000000, 0xFFFFFFFFFFFFFFFF, .C, fun _ => .cvdWritable⟩,
    ⟨0x5700000000000000, 0xFFFF000000000000, .C,
      fun w => .cvdLock (argOf w 0 12) (argOf w 12 12) (argOf w 24 12) (argOf w 36 12)⟩,
    ⟨0x5800000000000000, 0xFFFFFFFFFFFFFFFF, .C, fun _ => .cvdUnlock⟩ ]

/-- The VOX rows of R105. -/
def voxRows : List Row :=
  [ ⟨0x6000000000000000, 0xFFFFFFFFFFFFFFFF, .C, fun _ => .voxInit⟩,
    ⟨0x6100000000000000, 0xFFFFFFFFFFFFFFFF, .C, fun _ => .voxGateOn⟩,
    ⟨0x6200000000000000, 0xFFFFFFFFFFFFFFFF, .C, fun _ => .voxGateOff⟩,
    ⟨0x6300000000000000, 0xFFFFFFFFFFF88080, .C,
      fun w => .voxNoteOn (argOf w 0 7) (argOf w 8 7) (argFlag w 16) (argFlag w 17) (argFlag w 18)⟩,
    ⟨0x6400000000000000, 0xFFFFFFFFFFFFFFFF, .C, fun _ => .voxSample⟩,
    ⟨0x6500000000000000, 0xFFFFFFFFFFFFFFFF, .C, fun _ => .voxRefresh⟩,
    ⟨0x6600000000000000, 0xFFFFFFFFFFFF00E0, .C, fun w => .voxSetctx (argOf w 0 5) (argOf w 8 8)⟩,
    ⟨0x6700000000000000, 0xFFFFFFFFFFFFFFFE, .C, fun w => .voxSetlegato (argFlag w 0)⟩,
    ⟨0x6800000000000000, 0xFFFFFFFFFFFFFFFF, .C, fun _ => .voxRdretrig⟩ ]

/-- The opcode map, forty rows (R105). -/
def opcodeMap : List Row := sysRows ++ envRows ++ lfoRows ++ clkRows ++ gldRows ++ cvdRows ++ voxRows

/-- The row whose opcode is that of the word, if there is one (R102). -/
def rowOf (w : CommandWord) : Option Row := opcodeMap.find? (fun r => r.opc == opcOf w)

/-! ## The decoder -/

/-- Check 3 of R108 and the cutting of the operands: a word of row `r` with a must-be-zero bit set is refused by name. -/
def Row.read (r : Row) (w : CommandWord) : Except Reject Instr :=
  if w &&& r.mask = r.pattern then .ok (r.cut w) else .error .nonzeroReserved

/-- The command a word stands for, whatever the port: checks 1 and 3 of R108. -/
def decode (w : CommandWord) : Except Reject Instr :=
  match rowOf w with
  | none => .error .reservedOpcode
  | some r => r.read w

/-- The command a word stands for on port `p`: checks 1, 2 and 3 of R108, in that order (R102, R103). -/
def decodeOn (p : Port) (w : CommandWord) : Except Reject Instr :=
  match rowOf w with
  | none => .error .reservedOpcode
  | some r => if r.port = p then r.read w else .error .wrongPort

/-- The port that accepts the command of a word (R103): port T for CLK.TICK and CVD.READ, port C for every other word. -/
def portOfWord (w : CommandWord) : Port :=
  match rowOf w with
  | some r => r.port
  | none => .C

/-- A word stored or sent as eight bytes outside the block, little endian: byte 0 holds bits 7:0 (20_memory.md R75). -/
def bytesOfWord (w : CommandWord) : Vector (BitVec 8) 8 := Vector.ofFn fun k => w.extractLsb' (8 * k.val) 8

/-- The word that eight bytes hold, little endian (20_memory.md R75). -/
def wordOfBytes (b : Vector (BitVec 8) 8) : CommandWord := b[7] ++ b[6] ++ b[5] ++ b[4] ++ b[3] ++ b[2] ++ b[1] ++ b[0]

/-- A 48-bit result stored or sent as six bytes outside the block, little endian: byte 0 holds bits 7:0 (20_memory.md R75). -/
def bytesOfResult (r : ResultWord) : Vector (BitVec 8) 6 := Vector.ofFn fun k => r.extractLsb' (8 * k.val) 8

/-- The result that six bytes hold, little endian (20_memory.md R75). -/
def resultOfBytes (b : Vector (BitVec 8) 6) : ResultWord := b[5] ++ b[4] ++ b[3] ++ b[2] ++ b[1] ++ b[0]

/-- The word whose low `nbits` bits are those of `w` and whose other bits are zero. Bit 0 of `w` is bit 0 of the word. -/
def tableWord (nbits w : Nat) : CommandWord := BitVec.ofNat 64 (w % 2 ^ nbits)

/-- What the decoder reads from a word of spec/opcode_table.json, its low `nbits` bits those of `w`, on the port that accepts it
(DESIGN CHOICE, notes/assumptions/13.md; safe). -/
def decodeTableWord (nbits w : Nat) : Option Instr :=
  match decode (tableWord nbits w) with
  | .ok i => some i
  | .error _ => none

/-! ## The encoder -/

/-- The opcode of a command (R105). -/
def Instr.opc : Instr → BitVec 8
  | .sysNop => 0x00
  | .sysReset => 0x01
  | .sysRdreg _ => 0x02
  | .envInit _ => 0x10
  | .envUpdate _ _ _ _ _ => 0x11
  | .envTrigger _ _ => 0x12
  | .envRender _ => 0x13
  | .envGate _ => 0x14
  | .lfoInit _ => 0x20
  | .lfoSetshape _ _ => 0x21
  | .lfoSetinc _ _ => 0x22
  | .lfoRender _ => 0x23
  | .lfoSync _ _ => 0x24
  | .clkInit => 0x30
  | .clkUpdate _ _ _ => 0x31
  | .clkSetres _ => 0x32
  | .clkTick => 0x33
  | .clkCount => 0x34
  | .gldInit => 0x40
  | .gldSetinc _ => 0x41
  | .gldStart _ _ => 0x42
  | .gldRender => 0x43
  | .cvdInit => 0x50
  | .cvdSetcal _ _ _ => 0x51
  | .cvdSetin _ _ => 0x52
  | .cvdWrite => 0x53
  | .cvdRead => 0x54
  | .cvdReadable => 0x55
  | .cvdWritable => 0x56
  | .cvdLock _ _ _ _ => 0x57
  | .cvdUnlock => 0x58
  | .voxInit => 0x60
  | .voxGateOn => 0x61
  | .voxGateOff => 0x62
  | .voxNoteOn _ _ _ _ _ => 0x63
  | .voxSample => 0x64
  | .voxRefresh => 0x65
  | .voxSetctx _ _ => 0x66
  | .voxSetlegato _ => 0x67
  | .voxRdretrig => 0x68

/-- The `IDX` field of a command: its instance or channel operand, else zero (R106). -/
def Instr.idx : Instr → BitVec 4
  | .envInit e | .envUpdate e _ _ _ _ | .envTrigger e _ | .envRender e | .envGate e => e
  | .lfoInit l | .lfoSetshape l _ | .lfoSetinc l _ | .lfoRender l | .lfoSync l _ => l
  | .cvdSetin c _ => c
  | .sysNop | .sysReset | .sysRdreg _
  | .clkInit | .clkUpdate _ _ _ | .clkSetres _ | .clkTick | .clkCount
  | .gldInit | .gldSetinc _ | .gldStart _ _ | .gldRender
  | .cvdInit | .cvdSetcal _ _ _ | .cvdWrite | .cvdRead | .cvdReadable | .cvdWritable | .cvdLock _ _ _ _ | .cvdUnlock
  | .voxInit | .voxGateOn | .voxGateOff | .voxNoteOn _ _ _ _ _ | .voxSample | .voxRefresh | .voxSetctx _ _ | .voxSetlegato _
  | .voxRdretrig => 0

/-- The `ARG` field of a command, unused bits zero (R106). -/
def Instr.arg : Instr → BitVec 48
  | .sysRdreg addr => 0#32 ++ addr
  | .envUpdate _ attack decay sustain release => 0#16 ++ release ++ sustain ++ decay ++ attack
  | .envTrigger _ seg => 0#45 ++ seg
  | .lfoSetshape _ shape => 0#45 ++ shape
  | .lfoSetinc _ inc => 0#16 ++ inc
  | .lfoSync _ step => 0#40 ++ step
  | .clkUpdate bpm template amount => 0#24 ++ amount ++ template ++ bpm
  | .clkSetres res => 0#40 ++ res
  | .gldSetinc inc => 0#32 ++ inc
  | .gldStart target g => 0#31 ++ BitVec.ofBool g ++ target
  | .cvdSetcal scaleLow scaleHigh offset => offset ++ scaleHigh ++ scaleLow
  | .cvdSetin _ value => 0#16 ++ value
  | .cvdLock vco pw vcf vca => vca ++ vcf ++ pw ++ vco
  | .voxNoteOn note velocity slide accent legato =>
      0#29 ++ BitVec.ofBool legato ++ BitVec.ofBool accent ++ BitVec.ofBool slide ++ 0#1 ++ velocity ++ 0#1 ++ note
  | .voxSetctx offset value => 0#32 ++ value ++ 0#3 ++ offset
  | .voxSetlegato flag => 0#47 ++ BitVec.ofBool flag
  | .sysNop | .sysReset
  | .envInit _ | .envRender _ | .envGate _
  | .lfoInit _ | .lfoRender _
  | .clkInit | .clkTick | .clkCount
  | .gldInit | .gldRender
  | .cvdInit | .cvdWrite | .cvdRead | .cvdReadable | .cvdWritable | .cvdUnlock
  | .voxInit | .voxGateOn | .voxGateOff | .voxSample | .voxRefresh | .voxRdretrig => 0

/-- The port of a command (R103). -/
def Instr.port : Instr → Port
  | .clkTick | .cvdRead => .T
  | .sysNop | .sysReset | .sysRdreg _
  | .envInit _ | .envUpdate _ _ _ _ _ | .envTrigger _ _ | .envRender _ | .envGate _
  | .lfoInit _ | .lfoSetshape _ _ | .lfoSetinc _ _ | .lfoRender _ | .lfoSync _ _
  | .clkInit | .clkUpdate _ _ _ | .clkSetres _ | .clkCount
  | .gldInit | .gldSetinc _ | .gldStart _ _ | .gldRender
  | .cvdInit | .cvdSetcal _ _ _ | .cvdSetin _ _ | .cvdWrite | .cvdReadable | .cvdWritable | .cvdLock _ _ _ _ | .cvdUnlock
  | .voxInit | .voxGateOn | .voxGateOff | .voxNoteOn _ _ _ _ _ | .voxSample | .voxRefresh | .voxSetctx _ _ | .voxSetlegato _
  | .voxRdretrig => .C

/-- The word of a command (R101, R106). -/
def encode (i : Instr) : CommandWord := wordOf i.opc i.idx i.arg

end Sys2Proof
end

