-- ==== Sys2Proof/Machine/State.lean ====
section
/-! DEFINITION. The state of the block as plain data: every register of 10_state.md R24 to R55, the command streams, the random stream
and the control state of port C (R20, R40, R57), the reasons a step could stop, and the state after reset. -/

namespace Sys2Proof.Machine

/-- The registers of SYS (10_state.md R24, R25). `SYS.STATUS` is stored as its two flags. -/
structure Sys where
  /-- bit 0 of `SYS.STATUS` -/
  err : Bool
  /-- bit 1 of `SYS.STATUS` -/
  underrun : Bool
  /-- `SYS.ERRCODE` -/
  errCode : BitVec 8
  deriving DecidableEq, Repr

/-- The registers of one envelope (10_state.md R31 to R35). `INC[SUSTAIN]`, `INC[DEAD]` and the targets of ATTACK, RELEASE and DEAD are
hardwired and not stored; `TARGET[DECAY]` and `TARGET[SUSTAIN]`, always equal, are stored once (notes/assumptions/9.md). All entries
are read through `Env.inc` and `Env.target`. -/
structure Env where
  seg : Segment
  phase : BitVec 32
  value : BitVec 16
  /-- the segment's start value `A` -/
  a : BitVec 16
  /-- the segment's target value `B` -/
  b : BitVec 16
  incAttack : BitVec 32
  incDecay : BitVec 32
  incRelease : BitVec 32
  /-- `TARGET[DECAY]` and `TARGET[SUSTAIN]` -/
  sustainLevel : BitVec 16
  deriving DecidableEq, Repr

/-- The registers of one LFO (10_state.md R37 to R39). -/
structure Lfo where
  phase : BitVec 32
  inc : BitVec 32
  shape : Shape
  cur : BitVec 16
  prev : BitVec 16
  value : BitVec 16
  lastPh : BitVec 32
  deriving DecidableEq, Repr

/-- The registers of CLK (10_state.md R41 to R44). -/
structure Clk where
  bpm : BitVec 8
  template : BitVec 8
  amount : BitVec 8
  res : BitVec 8
  cnt : BitVec 16
  events : BitVec 8
  tick6 : BitVec 3
  gidx : BitVec 4
  pre : BitVec 3
  base : BitVec 16
  dur : Vector (BitVec 16) 16
  deriving DecidableEq, Repr

/-- The registers of GLD (10_state.md R45). -/
structure Gld where
  source : BitVec 16
  target : BitVec 16
  counter : BitVec 16
  inc : BitVec 16
  pitch : BitVec 16
  deriving DecidableEq, Repr

/-- The registers of CVD (10_state.md R46 to R51). `offset` and `input` hold two's-complement patterns. -/
structure Cvd where
  scaleLow : BitVec 16
  scaleHigh : BitVec 16
  offset : BitVec 16
  wptr : BitVec 2
  rptr : BitVec 2
  locked : Bool
  out : DacState
  override : DacState
  /-- `CVD.IN`, the four pre-clip values -/
  input : Quad (BitVec 32)
  slot : Vector DacState 4
  deriving DecidableEq, Repr

/-- The registers of VOX (10_state.md R52 to R55). -/
structure Vox where
  retrig : Bool
  velocity : BitVec 7
  accent : Bool
  legatoMode : Bool
  ctx : Vector (BitVec 8) 32
  deriving DecidableEq, Repr

/-- The random input stream (10_state.md R40): the draws already fixed, then free draws, of which `taken` have been used. The split, and
the counter, are the model's own (notes/assumptions/3.md). -/
structure Rng where
  fixed : List (BitVec 16)
  taken : Nat
  deriving DecidableEq, Repr

/-- What a command returns to its port (30_encoding.md R104). -/
structure Response where
  res : ResultWord
  rej : Bool
  deriving DecidableEq, Repr

/-- One port: its command stream (30_encoding.md R100), its command index (10_state.md R21; where it starts is the model's choice,
notes/assumptions/17.md), and the model's own field `response`, the
response of the last command taken, none while that command is in progress (notes/assumptions/7.md). -/
structure PortState where
  pending : List CommandWord
  index : Nat
  response : Option Response
  deriving DecidableEq, Repr

/-- The control state of port C (10_state.md R57 item e, 60_exceptions.md R277): the command in progress, with the local it carries. -/
inductive Control
  /-- between two commands -/
  | idle
  /-- CLK.COUNT between step A and step B, with the count n of step A -/
  | clkCount (n : BitVec 8)
  /-- CLK.UPDATE, whose next step writes `DUR[i]` -/
  | clkUpdate (i : BitVec 4)
  /-- VOX.REFRESH, which has written n samples -/
  | voxRefresh (n : Nat)
  deriving DecidableEq, Repr

/-- The state of the block. -/
structure State where
  sys : Sys
  env : Vector Env nEnv
  lfo : Vector Lfo nLfo
  clk : Clk
  gld : Gld
  cvd : Cvd
  vox : Vox
  rng : Rng
  portC : PortState
  portT : PortState
  /-- the command in progress on port C -/
  ctl : Control
  /-- the interleaving parameter of the run (20_memory.md R81): which port takes each coming step (notes/assumptions/5.md) -/
  schedule : List Port
  deriving DecidableEq, Repr

/-- The faults of the block: none. "The block raises no synchronous exception and takes no trap" (60_exceptions.md R270), and no state
makes it stop accepting commands (93_implementation_defined.md, part 2), so no step answers with a fault (safe: there is nothing to
stop on). -/
inductive Fault
  deriving DecidableEq, Repr

/-- The refusals of the model. -/
inductive Refusal
  /-- Raised only by an arm of `exec` that gives its instruction no meaning yet; no arm does, so no step answers with it. Safe: the model
  would stop where the block goes on. -/
  | notModelled (mnemonic : String)
  deriving DecidableEq, Repr

/-- The state after power-on: each register at the reset value of 10_state.md section 10; each register whose reset value is unspecified
at the value that notes/assumptions/2.md names (DESIGN CHOICE, unsafe): zero, but for `CLK.BPM`, `CLK.RES` and `CLK.DUR`, which are 1,
within their invariants (70_reset_and_hazards.md R302). No command waits on either port. Both command indices start at 0, which 10_state.md
R21 leaves open (DESIGN CHOICE, unsafe, notes/assumptions/17.md). -/
def State.reset : State where
  sys := { err := false, underrun := false, errCode := 0 }
  env := Vector.replicate nEnv
    { seg := .dead, phase := 0, value := 0, a := 0, b := 0, incAttack := 0, incDecay := 0, incRelease := 0, sustainLevel := 0 }
  lfo := Vector.replicate nLfo
    { phase := 0, inc := 0, shape := .triangle, cur := 0, prev := 0, value := 0, lastPh := 0 }
  clk :=
    { bpm := 1, template := 0, amount := 0, res := 1, cnt := 0, events := 0, tick6 := 0, gidx := 0, pre := 0, base := 0
      dur := Vector.replicate 16 1 }
  gld := { source := 0, target := 0, counter := 0, inc := 0, pitch := 0 }
  cvd :=
    { scaleLow := 0, scaleHigh := 0, offset := 0, wptr := 0, rptr := 0, locked := false, out := Quad.all 0, override := Quad.all 0
      input := Quad.all 0, slot := Vector.replicate 4 (Quad.all 0) }
  vox := { retrig := false, velocity := 0, accent := false, legatoMode := false, ctx := Vector.replicate 32 0 }
  rng := { fixed := [], taken := 0 }
  portC := { pending := [], index := 0, response := none }
  portT := { pending := [], index := 0, response := none }
  ctl := .idle
  schedule := []

end Sys2Proof.Machine
end

