-- ==== Sys2Proof/Machine/Ops.lean ====
section
/-! DEFINITION. The shared operations: the arithmetic primitives of 00_scope.md R10, the packed DACState (44_cvdac.md R205), access to
the hardwired envelope registers, the random draw (10_state.md R40), and how a command answers its port: with a result
(30_encoding.md R104) or with a rejection (60_exceptions.md R272), which is all this block has in the place of an exception (R270). -/

namespace Sys2Proof

/-! ## Codes of named values -/

/-- The number of a segment (10_state.md R31). -/
def Segment.code : Segment → BitVec 3
  | .attack => 0
  | .decay => 1
  | .sustain => 2
  | .release => 3
  | .dead => 4

/-- The number of a shape (10_state.md R38). -/
def Shape.code : Shape → BitVec 3
  | .triangle => 0
  | .square => 1
  | .rampUp => 2
  | .rampDown => 3
  | .sampleAndHold => 4
  | .bernouilli => 5
  | .lines => 6
  | .noise => 7

/-- The value a rejection records in `SYS.ERRCODE` (60_exceptions.md R273). -/
def Reject.code : Reject → BitVec 8
  | .reservedOpcode => 1
  | .reservedOperand => 2
  | .wrongPort => 3
  | .nonzeroReserved => 4
  | .ringFull => 5

end Sys2Proof

namespace Sys2Proof.Machine

/-- What the meaning of a command answers. -/
abbrev Answer := Host.Outcome State Fault Refusal

/-! ## Arithmetic -/

/-- `asr(x, n)`: floor division by a power of two (R10). -/
def asr (x : Int) (n : Nat) : Int := x / 2 ^ n

/-- `clamp(x, lo, hi)` (R10). -/
def clamp (x lo hi : Int) : Int := min (max x lo) hi

/-- `Clip12(x)`, as the 12-bit value it is (R10). -/
def clip12 (x : Int) : BitVec 12 := BitVec.ofInt 12 (clamp x 0 4095)

/-- `Mix16(a, b, c)`, as the 16-bit value it is (R10). -/
def mix16 (a b c : BitVec 16) : BitVec 16 :=
  BitVec.ofNat 16 ((a.toNat * (65536 - c.toNat) + b.toNat * c.toNat) / 65536)

/-- A pre-clip value saturated to s32, as its two's-complement pattern (45_voice.md R228). -/
def saturate32 (x : Int) : BitVec 32 := BitVec.ofInt 32 (clamp x (-2 ^ 31) (2 ^ 31 - 1))

/-- `Pack(s)`: VCO in bits 11:0, then PW, VCF, VCA (44_cvdac.md R205, 20_memory.md R75). -/
def pack (q : DacState) : ResultWord := q.vca ++ q.vcf ++ q.pw ++ q.vco

/-- The DACState of a packed image (44_cvdac.md R205, 20_memory.md R75). -/
def unpack (r : ResultWord) : DacState :=
  { vco := r.extractLsb' 0 12, pw := r.extractLsb' 12 12, vcf := r.extractLsb' 24 12, vca := r.extractLsb' 36 12 }

/-- A DACState stored or sent as bytes outside the block: its packed image, little endian (20_memory.md R75). -/
def bytesOfDacState (q : DacState) : Vector (BitVec 8) 6 := bytesOfResult (pack q)

/-- The DACState that six bytes hold (20_memory.md R75). -/
def dacStateOfBytes (b : Vector (BitVec 8) 6) : DacState := unpack (resultOfBytes b)

/-! ## Channels -/

/-- Channel `c` of a quad (00_scope.md R15). -/
def quadGet {α : Type} (q : Quad α) (c : Fin 4) : α :=
  match c with
  | 0 => q.vco
  | 1 => q.pw
  | 2 => q.vcf
  | 3 => q.vca

/-- A quad with channel `c` replaced (00_scope.md R15). -/
def quadSet {α : Type} (q : Quad α) (c : Fin 4) (x : α) : Quad α :=
  match c with
  | 0 => { q with vco := x }
  | 1 => { q with pw := x }
  | 2 => { q with vcf := x }
  | 3 => { q with vca := x }

/-- A function applied to all four channels. -/
def quadMap {α β : Type} (f : α → β) (q : Quad α) : Quad β := ⟨f q.vco, f q.pw, f q.vcf, f q.vca⟩

/-! ## Register access -/

/-- A function applied to every instance of a unit; `Vector.map`, in a form that Lean's kernel evaluates. -/
def mapAll {α β : Type} {n : Nat} (f : α → β) (v : Vector α n) : Vector β n := Vector.ofFn fun i => f v[i]

/-- `INC[s]` of an envelope, with the two hardwired entries (10_state.md R34). -/
def Env.inc (e : Env) : Segment → BitVec 32
  | .attack => e.incAttack
  | .decay => e.incDecay
  | .sustain => 0
  | .release => e.incRelease
  | .dead => 0

/-- `TARGET[s]` of an envelope, with the hardwired entries and the shared sustain level (10_state.md R35). -/
def Env.target (e : Env) : Segment → BitVec 16
  | .attack => 65535
  | .decay => e.sustainLevel
  | .sustain => e.sustainLevel
  | .release => 0
  | .dead => 0

/-- The state with the registers of envelope `e` replaced. -/
def State.setEnv (s : State) (e : Fin nEnv) (x : Env) : State := { s with env := s.env.set e x }

/-- The state with the registers of LFO `l` replaced. -/
def State.setLfo (s : State) (l : Fin nLfo) (x : Lfo) : State := { s with lfo := s.lfo.set l x }

/-! ## The random input -/

/-- `draw16()`: the next value of the random input, and the input after it (10_state.md R40, 00_scope.md R11). -/
def Rng.draw (r : Rng) : BitVec 16 × Rng :=
  match r.fixed with
  | x :: xs => (x, { r with fixed := xs })
  | [] => (Config.freeDraw r.taken, { r with taken := r.taken + 1 })

/-! ## Answering a port -/

/-- The response of the command in hand on port `p` becomes `r`. -/
def State.respond (s : State) (p : Port) (r : Response) : State :=
  match p with
  | .C => { s with portC := { s.portC with response := some r } }
  | .T => { s with portT := { s.portT with response := some r } }

/-- The command returns `res` to port `p`, performed (30_encoding.md R104). -/
def State.reply (s : State) (p : Port) (res : ResultWord) : State := s.respond p { res := res, rej := false }

/-- The SYS registers after a rejection: only the first one since reset is recorded (60_exceptions.md R272). -/
def Sys.recordReject (y : Sys) (k : Reject) : Sys :=
  if y.err then y else { y with err := true, errCode := k.code }

/-- `reject(k)` for a command of port `p`: the one shared operation for every command that is refused (60_exceptions.md R272). -/
def State.reject (s : State) (p : Port) (k : Reject) : State :=
  { s with sys := s.sys.recordReject k }.respond p { res := 0, rej := true }

/-- Check 4 of 30_encoding.md R108 for a port-C command: with a legal operand the command is performed, else rejected with code 2. -/
def State.withOperand {α : Type} (s : State) (x : Option α) (perform : α → State) : State :=
  match x with
  | some a => perform a
  | none => s.reject .C .reservedOperand

end Sys2Proof.Machine
end

