-- ==== Sys2Proof/Machine/Flags.lean ====
section
/-! DEFINITION. The flags and derived predicates of 10_state.md R56. The block has no condition codes: its stored flags are fields of the
state (`Sys.err`, `Sys.underrun`, `Cvd.locked`, `Vox.retrig`), and what is computed from the state stands here. -/

namespace Sys2Proof.Machine

/-- `SYS.STATUS` as a register: ERR in bit 0, UNDERRUN in bit 1, zero above (10_state.md R24). -/
def Sys.status (y : Sys) : BitVec 8 := 0#6 ++ BitVec.ofBool y.underrun ++ BitVec.ofBool y.err

/-- `EnvGate(e)`: the segment is before RELEASE (10_state.md R56, 40_env.md R135). -/
def Env.gate (e : Env) : Bool := e.seg.code < Segment.release.code

/-- `Gated = EnvGate(0)` (10_state.md R56, 45_voice.md R221). -/
def State.gated (s : State) : Bool := s.env[0].gate

/-- `Readable = (WPTR - RPTR) mod 4` (10_state.md R56). -/
def Cvd.readable (c : Cvd) : BitVec 2 := c.wptr - c.rptr

/-- `Writable = (RPTR - WPTR - 1) mod 4` (10_state.md R56). -/
def Cvd.writable (c : Cvd) : BitVec 2 := c.rptr - c.wptr - 1

/-- Phase overflow, "detected as new_phase < increment" (40_env.md R134, 41_lfo.md R154, 43_glide.md R195): whether adding `inc` to a
phase gave `ph` by wrapping. -/
def overflowed {n : Nat} (ph inc : BitVec n) : Bool := ph < inc

end Sys2Proof.Machine
end

