-- ==== Sys2Proof/Machine/Operands.lean ====
section
/-! DEFINITION. The operand forms of 30_encoding.md R106 and R107: an operand field read as the thing it names, or nothing where the
field is outside its legal range (check 4 of R108); and the read-out address of SYS.RDREG (10_state.md R22 and section 10). -/

namespace Sys2Proof

/-- The segment a `seg` operand names; 5 to 7 name none (40_env.md R133). -/
def Segment.ofCode (x : BitVec 3) : Option Segment :=
  match x.toNat with
  | 0 => some .attack
  | 1 => some .decay
  | 2 => some .sustain
  | 3 => some .release
  | 4 => some .dead
  | _ => none

/-- The shape a `shape` operand names; all eight values are legal (10_state.md R38). -/
def Shape.ofCode (x : BitVec 3) : Shape :=
  match x.toNat with
  | 0 => .triangle
  | 1 => .square
  | 2 => .rampUp
  | 3 => .rampDown
  | 4 => .sampleAndHold
  | 5 => .bernouilli
  | 6 => .lines
  | _ => .noise

/-- The registers that have a read-out address (10_state.md section 10). -/
inductive Reg
  | sysStatus
  | sysErrcode
  | envSeg (e : Fin nEnv)
  | envPhase (e : Fin nEnv)
  | envValue (e : Fin nEnv)
  | envA (e : Fin nEnv)
  | envB (e : Fin nEnv)
  | envInc (e : Fin nEnv) (s : Segment)
  | envTarget (e : Fin nEnv) (s : Segment)
  | lfoPhase (l : Fin nLfo)
  | lfoInc (l : Fin nLfo)
  | lfoShape (l : Fin nLfo)
  | lfoCur (l : Fin nLfo)
  | lfoPrev (l : Fin nLfo)
  | lfoValue (l : Fin nLfo)
  | lfoLastph (l : Fin nLfo)
  | clkBpm
  | clkTemplate
  | clkAmount
  | clkRes
  | clkCnt
  | clkEvents
  | clkTick6
  | clkGidx
  | clkPre
  | clkBase
  | clkDur (i : BitVec 4)
  | gldSource
  | gldTarget
  | gldCounter
  | gldInc
  | gldPitch
  | cvdScaleLow
  | cvdScaleHigh
  | cvdOffset
  | cvdWptr
  | cvdRptr
  | cvdLocked
  | cvdOut (c : Fin 4)
  | cvdOverride (c : Fin 4)
  | cvdIn (c : Fin 4)
  | cvdSlot (k c : Fin 4)
  | voxRetrig
  | voxVelocity
  | voxAccent
  | voxLegatoMode
  | voxCtx (o : BitVec 5)
  deriving DecidableEq, Repr

end Sys2Proof

namespace Sys2Proof.Machine

/-- The envelope an `e` operand names, 0 .. N_ENV - 1. -/
def envIndex (e : BitVec 4) : Option (Fin nEnv) :=
  if h : e.toNat < nEnv then some ⟨e.toNat, h⟩ else none

/-- The LFO an `l` operand names, 0 .. N_LFO - 1. -/
def lfoIndex (l : BitVec 4) : Option (Fin nLfo) :=
  if h : l.toNat < nLfo then some ⟨l.toNat, h⟩ else none

/-- The channel a `c` operand names, 0 .. 3. -/
def channelIndex (c : BitVec 4) : Option (Fin 4) :=
  if h : c.toNat < 4 then some ⟨c.toNat, h⟩ else none

/-- The `res` operand of CLK.SETRES: 1, 2 or 6 (42_clk.md R173). -/
def legalRes (res : BitVec 8) : Option (BitVec 8) :=
  if res = 1 ∨ res = 2 ∨ res = 6 then some res else none

/-- The operands of CLK.UPDATE: `bpm` not 0 and `template` below N_GROOVE (42_clk.md R172). -/
def legalUpdate (cfg : Config) (bpm template : BitVec 8) : Option Unit :=
  if bpm ≠ 0 ∧ template.toNat < cfg.nGroove then some () else none

/-- The registers of SYS by register number. -/
def sysReg (r : Nat) : Option Reg :=
  match r with
  | 0x00 => some .sysStatus
  | 0x01 => some .sysErrcode
  | _ => none

/-- The registers of envelope `e` by register number. -/
def envReg (e : Fin nEnv) (r : Nat) : Option Reg :=
  match r with
  | 0x00 => some (.envSeg e)
  | 0x01 => some (.envPhase e)
  | 0x02 => some (.envValue e)
  | 0x03 => some (.envA e)
  | 0x04 => some (.envB e)
  | 0x10 => some (.envInc e .attack)
  | 0x11 => some (.envInc e .decay)
  | 0x12 => some (.envInc e .sustain)
  | 0x13 => some (.envInc e .release)
  | 0x14 => some (.envInc e .dead)
  | 0x20 => some (.envTarget e .attack)
  | 0x21 => some (.envTarget e .decay)
  | 0x22 => some (.envTarget e .sustain)
  | 0x23 => some (.envTarget e .release)
  | 0x24 => some (.envTarget e .dead)
  | _ => none

/-- The registers of LFO `l` by register number. -/
def lfoReg (l : Fin nLfo) (r : Nat) : Option Reg :=
  match r with
  | 0x00 => some (.lfoPhase l)
  | 0x01 => some (.lfoInc l)
  | 0x02 => some (.lfoShape l)
  | 0x03 => some (.lfoCur l)
  | 0x04 => some (.lfoPrev l)
  | 0x05 => some (.lfoValue l)
  | 0x06 => some (.lfoLastph l)
  | _ => none

/-- The registers of CLK by register number. -/
def clkReg (r : Nat) : Option Reg :=
  if 0x10 ≤ r ∧ r ≤ 0x1F then some (.clkDur (BitVec.ofNat 4 (r - 0x10)))
  else
    match r with
    | 0x00 => some .clkBpm
    | 0x01 => some .clkTemplate
    | 0x02 => some .clkAmount
    | 0x03 => some .clkRes
    | 0x04 => some .clkCnt
    | 0x05 => some .clkEvents
    | 0x06 => some .clkTick6
    | 0x07 => some .clkGidx
    | 0x08 => some .clkPre
    | 0x09 => some .clkBase
    | _ => none

/-- The registers of GLD by register number. -/
def gldReg (r : Nat) : Option Reg :=
  match r with
  | 0x00 => some .gldSource
  | 0x01 => some .gldTarget
  | 0x02 => some .gldCounter
  | 0x03 => some .gldInc
  | 0x04 => some .gldPitch
  | _ => none

/-- The registers of CVD by register number. -/
def cvdReg (r : Nat) : Option Reg :=
  if 0x40 ≤ r ∧ r ≤ 0x4F then some (.cvdSlot (Fin.ofNat 4 ((r - 0x40) / 4)) (Fin.ofNat 4 (r - 0x40)))
  else if 0x30 ≤ r ∧ r ≤ 0x33 then some (.cvdIn (Fin.ofNat 4 (r - 0x30)))
  else if 0x20 ≤ r ∧ r ≤ 0x23 then some (.cvdOverride (Fin.ofNat 4 (r - 0x20)))
  else if 0x10 ≤ r ∧ r ≤ 0x13 then some (.cvdOut (Fin.ofNat 4 (r - 0x10)))
  else
    match r with
    | 0x00 => some .cvdScaleLow
    | 0x01 => some .cvdScaleHigh
    | 0x02 => some .cvdOffset
    | 0x03 => some .cvdWptr
    | 0x04 => some .cvdRptr
    | 0x05 => some .cvdLocked
    | _ => none

/-- The registers of VOX by register number. -/
def voxReg (r : Nat) : Option Reg :=
  if 0x20 ≤ r ∧ r ≤ 0x3F then some (.voxCtx (BitVec.ofNat 5 (r - 0x20)))
  else
    match r with
    | 0x00 => some .voxRetrig
    | 0x01 => some .voxVelocity
    | 0x02 => some .voxAccent
    | 0x03 => some .voxLegatoMode
    | _ => none

/-- The register at a read-out address `unit, instance, reg` (10_state.md R22), or nothing where the address is not implemented
(46_sys.md R242). -/
def regOfAddr (addr : BitVec 16) : Option Reg :=
  let unit := addr.toNat / 0x1000
  let inst := addr.toNat / 0x100 % 0x10
  let r := addr.toNat % 0x100
  if unit = 1 then
    if h : inst < nEnv then envReg ⟨inst, h⟩ r else none
  else if unit = 2 then
    if h : inst < nLfo then lfoReg ⟨inst, h⟩ r else none
  else if inst ≠ 0 then none
  else
    match unit with
    | 0 => sysReg r
    | 3 => clkReg r
    | 4 => gldReg r
    | 5 => cvdReg r
    | 6 => voxReg r
    | _ => none

end Sys2Proof.Machine
end

