-- ==== Sys2Proof/Machine/Clk.lean ====
section
/-! DEFINITION. CLK, the clock divider with groove (42_clk.md): its operations, the meanings of its five commands, and the later steps of
the two commands that take several (60_exceptions.md R277). -/

namespace Sys2Proof.Machine

/-- What CLK.INIT restores; the parameters and the duration table keep their values (42_clk.md R171). -/
def Clk.init (c : Clk) : Clk := { c with cnt := 0, events := 0, tick6 := 0, gidx := 0, pre := 0 }

/-- The base duration: the tempo factor over four times the tempo, rounded half up, saturated (42_clk.md R172). -/
def baseDuration (cfg : Config) (bpm : BitVec 8) : BitVec 16 :=
  BitVec.ofNat 16 (min 65535 ((cfg.tempoFactor + 2 * bpm.toNat) / (4 * bpm.toNat)))

/-- The duration of step `i`: the base and its swing, clamped to 1..65535 (42_clk.md R172). -/
def stepDuration (cfg : Config) (template amount : BitVec 8) (base : BitVec 16) (i : BitVec 4) : BitVec 16 :=
  let swing := asr ((cfg.grooveLut template i).toInt * amount.toNat * base.toNat) 16
  BitVec.ofInt 16 (clamp (base.toNat + swing) 1 65535)

/-- One entry write of `ClkUpdate`, from the parameters the command's first step stored (42_clk.md R172). DEDUCED: the
registers are the parameters of the later steps (notes/assumptions/8.md); safe. -/
def Clk.writeDuration (cfg : Config) (c : Clk) (i : BitVec 4) : Clk :=
  { c with dur := c.dur.set i.toNat (stepDuration cfg c.template c.amount c.base i) }

/-- The first step of `ClkUpdate`: the four parameter registers and `DUR[0]` (42_clk.md R172, 60_exceptions.md R277). -/
def Clk.beginUpdate (cfg : Config) (c : Clk) (bpm template amount : BitVec 8) : Clk :=
  Clk.writeDuration cfg { c with bpm := bpm, template := template, amount := amount, base := baseDuration cfg bpm } 0

/-- `ClkTick()` (42_clk.md R175). -/
def Clk.tick (c : Clk) : Clk :=
  let n := c.cnt + 1
  if c.dur[c.gidx.toNat] ≤ n then { c with events := c.events + 1, cnt := 0 } else { c with cnt := n }

/-- One turn of step B of `ClkCount()`: one internal tick, and whether it completes a clock event (42_clk.md R177). DESIGN
CHOICE: outside their invariants the counters wrap at their widths (notes/assumptions/12.md); safe. -/
def Clk.advance (c : Clk) : Clk × Bool :=
  let t := c.tick6 + 1
  let p := c.pre + 1
  let event := decide (c.res.toNat ≤ p.toNat)
  ({ c with
      tick6 := if t = 6 then 0 else t
      gidx := if t = 6 then c.gidx + 1 else c.gidx
      pre := if event then 0 else p }, event)

/-- Step B of `ClkCount()`: `n` turns, and the number of clock events they complete (42_clk.md R177). -/
def Clk.drain (c : Clk) : Nat → Clk × Nat
  | 0 => (c, 0)
  | n + 1 =>
    let first := c.advance
    let rest := Clk.drain first.1 n
    (rest.1, (if first.2 then 1 else 0) + rest.2)

/-- CLK.INIT (42_clk.md R171). -/
def execClkInit (s : State) : Answer := .next (State.reply { s with clk := s.clk.init } .C 0)

/-- CLK.UPDATE bpm, template, amount: the first of its sixteen steps; port C goes on with entry 1 (42_clk.md R172). -/
def execClkUpdate (bpm template amount : BitVec 8) (s : State) (cfg : Config := config) : Answer :=
  .next (s.withOperand (legalUpdate cfg bpm template) fun _ =>
    { s with clk := s.clk.beginUpdate cfg bpm template amount, ctl := .clkUpdate 1 })

/-- CLK.SETRES res (42_clk.md R173). -/
def execClkSetres (res : BitVec 8) (s : State) : Answer :=
  .next (s.withOperand (legalRes res) fun r => State.reply { s with clk := { s.clk with res := r } } .C 0)

/-- CLK.TICK, on port T (42_clk.md R175). -/
def execClkTick (s : State) : Answer := .next (State.reply { s with clk := s.clk.tick } .T 0)

/-- CLK.COUNT: step A, the exchange of `EVENTS` with 0; port C goes on with step B (42_clk.md R177). -/
def execClkCount (s : State) : Answer :=
  .next { s with clk := { s.clk with events := 0 }, ctl := .clkCount s.clk.events }

/-- A later step of CLK.UPDATE: entry `i`; the last one ends the command with result 0 (42_clk.md R172, 60_exceptions.md R277). -/
def State.continueClkUpdate (cfg : Config) (s : State) (i : BitVec 4) : State :=
  let clk := s.clk.writeDuration cfg i
  if i = 15 then State.reply { s with clk := clk, ctl := .idle } .C 0
  else { s with clk := clk, ctl := .clkUpdate (i + 1) }

/-- Step B of CLK.COUNT, which ends the command with the number of clock events (42_clk.md R177). -/
def State.finishClkCount (s : State) (n : BitVec 8) : State :=
  let d := s.clk.drain n.toNat
  State.reply { s with clk := d.1, ctl := .idle } .C (BitVec.ofNat 48 d.2)

end Sys2Proof.Machine
end

