-- ==== Sys2Proof/Machine/Cvd.lean ====
section
/-! DEFINITION. CVD, CV scaling, clipping and the DAC-state ring (44_cvdac.md): its operations, shared with VOX, and the meanings of its
nine commands. -/

namespace Sys2Proof.Machine

/-- `CalPitch(x)`: two segments anchored at the offset, the scales with 14 fraction bits, then clipped (44_cvdac.md R203). -/
def Cvd.calPitch (cfg : Config) (c : Cvd) (x : Int) : BitVec 12 :=
  let scale := if x < cfg.pitchRef then c.scaleLow else c.scaleHigh
  clip12 (c.offset.toInt + asr ((x - cfg.pitchRef) * scale.toNat) 14)

/-- The DACState that the pre-clip values make: the pitch calibrated, the other channels clipped (44_cvdac.md R206). -/
def Cvd.sampleOf (cfg : Config) (c : Cvd) : DacState :=
  { vco := c.calPitch cfg c.input.vco.toInt
    pw := clip12 c.input.pw.toInt
    vcf := clip12 c.input.vcf.toInt
    vca := clip12 c.input.vca.toInt }

/-- `CvdWrite()` past its full test: the slot is filled, then `WPTR` publishes it (44_cvdac.md R206). -/
def Cvd.write (cfg : Config) (c : Cvd) : Cvd :=
  { c with slot := c.slot.set c.wptr.toNat (c.sampleOf cfg), wptr := c.wptr + 1 }

/-- The ring side of `CvdRead()`: the override while locked, else the oldest waiting slot, else no change (44_cvdac.md R208). -/
def Cvd.read (c : Cvd) : Cvd :=
  if c.locked then { c with out := c.override }
  else if c.readable = 0 then c
  else { c with out := c.slot[c.rptr.toNat], rptr := c.rptr + 1 }

/-- Whether a read finds the ring empty and the voice not locked (44_cvdac.md R208). -/
def Cvd.underruns (c : Cvd) : Bool := !c.locked && c.readable == 0

/-- What CVD.INIT restores; the calibration, the override, the pre-clip values and the slots keep their values (44_cvdac.md R201). -/
def Cvd.init (c : Cvd) : Cvd := { c with wptr := 0, rptr := 0, locked := false, out := Quad.all 0 }

/-- CVD.INIT (44_cvdac.md R201). -/
def execCvdInit (s : State) : Answer := .next (State.reply { s with cvd := s.cvd.init } .C 0)

/-- CVD.SETCAL scale_low, scale_high, offset (44_cvdac.md R202). -/
def execCvdSetcal (scaleLow scaleHigh offset : BitVec 16) (s : State) : Answer :=
  .next (State.reply { s with cvd := { s.cvd with scaleLow := scaleLow, scaleHigh := scaleHigh, offset := offset } } .C 0)

/-- CVD.SETIN c, value (44_cvdac.md R204). -/
def execCvdSetin (c : BitVec 4) (value : BitVec 32) (s : State) : Answer :=
  .next (s.withOperand (channelIndex c) fun k =>
    State.reply { s with cvd := { s.cvd with input := quadSet s.cvd.input k value } } .C 0)

/-- CVD.WRITE: rejected with code 5 where the ring is full (44_cvdac.md R206). -/
def execCvdWrite (s : State) (cfg : Config := config) : Answer :=
  .next (if s.cvd.writable = 0 then s.reject .C .ringFull else State.reply { s with cvd := s.cvd.write cfg } .C 0)

/-- CVD.READ, on port T (44_cvdac.md R208). -/
def execCvdRead (s : State) : Answer :=
  .next (State.reply
    { s with cvd := s.cvd.read, sys := { s.sys with underrun := s.sys.underrun || s.cvd.underruns } } .T (pack s.cvd.read.out))

/-- CVD.READABLE (44_cvdac.md R209). -/
def execCvdReadable (s : State) : Answer := .next (s.reply .C (s.cvd.readable.setWidth 48))

/-- CVD.WRITABLE (44_cvdac.md R210). -/
def execCvdWritable (s : State) : Answer := .next (s.reply .C (s.cvd.writable.setWidth 48))

/-- CVD.LOCK vco, pw, vcf, vca (44_cvdac.md R212). -/
def execCvdLock (vco pw vcf vca : BitVec 12) (s : State) : Answer :=
  .next (State.reply
    { s with cvd := { s.cvd with override := { vco := vco, pw := pw, vcf := vcf, vca := vca }, locked := true } } .C 0)

/-- CVD.UNLOCK (44_cvdac.md R213). -/
def execCvdUnlock (s : State) : Answer := .next (State.reply { s with cvd := { s.cvd with locked := false } } .C 0)

end Sys2Proof.Machine
end

