-- ==== Sys2Proof/Machine/Env.lean ====
section
/-! DEFINITION. ENV, the envelope generator (40_env.md): its operations, shared with VOX, and the meanings of its five commands. -/

namespace Sys2Proof.Machine

/-- `EnvTrigger(e, s)`: entering ATTACK or DEAD zeroes the value; then the start value, the target, the segment and the phase are
recorded, each step reading what the one before wrote (40_env.md R133). -/
def Env.trigger (e : Env) (s : Segment) : Env :=
  let v := if s = .attack ∨ s = .dead then 0 else e.value
  { e with value := v, a := v, b := e.target s, seg := s, phase := 0 }

/-- The segment that follows on completion; DEAD is followed by none (40_env.md R130). -/
def Segment.following : Segment → Option Segment
  | .attack => some .decay
  | .decay => some .sustain
  | .sustain => some .release
  | .release => some .dead
  | .dead => none

/-- The completing call of `EnvRender`: the value snaps to `B` and the next segment, if there is one, is triggered (40_env.md R134). -/
def Env.complete (e : Env) : Env :=
  match Segment.following e.seg with
  | some s => Env.trigger { e with value := e.b } s
  | none => { e with value := e.b }

/-- `EnvRender(e)`, whose result is the value it leaves (40_env.md R134). -/
def Env.render (cfg : Config) (e : Env) : Env :=
  let inc := e.inc e.seg
  let ph := e.phase + inc
  if overflowed ph inc then e.complete
  else { e with phase := ph, value := mix16 e.a e.b (cfg.envCurve (ph.extractLsb' 24 8)) }

/-- What ENV.INIT restores; the increments and the sustain level keep their values (40_env.md R131). -/
def Env.init (e : Env) : Env := { e with seg := .dead, phase := 0, value := 0, a := 0, b := 0 }

/-- What ENV.UPDATE writes: three increments and the sustain level, `sustain * 257` (40_env.md R132). -/
def Env.update (cfg : Config) (e : Env) (attack decay sustain release : BitVec 8) : Env :=
  { e with
    incAttack := cfg.envIncLut attack
    incDecay := cfg.envIncLut decay
    incRelease := cfg.envIncLut release
    sustainLevel := BitVec.ofNat 16 (sustain.toNat * 257) }

/-- ENV.INIT e (40_env.md R131). -/
def execEnvInit (e : BitVec 4) (s : State) : Answer :=
  .next (s.withOperand (envIndex e) fun k => (s.setEnv k s.env[k].init).reply .C 0)

/-- ENV.UPDATE e, attack, decay, sustain, release (40_env.md R132). -/
def execEnvUpdate (e : BitVec 4) (attack decay sustain release : BitVec 8) (s : State) (cfg : Config := config) : Answer :=
  .next (s.withOperand (envIndex e) fun k => (s.setEnv k (s.env[k].update cfg attack decay sustain release)).reply .C 0)

/-- ENV.TRIGGER e, seg (40_env.md R133). -/
def execEnvTrigger (e : BitVec 4) (seg : BitVec 3) (s : State) : Answer :=
  .next (s.withOperand (envIndex e) fun k => s.withOperand (Segment.ofCode seg) fun g =>
    (s.setEnv k (s.env[k].trigger g)).reply .C 0)

/-- ENV.RENDER e (40_env.md R134). -/
def execEnvRender (e : BitVec 4) (s : State) (cfg : Config := config) : Answer :=
  .next (s.withOperand (envIndex e) fun k =>
    let x := s.env[k].render cfg
    (s.setEnv k x).reply .C (x.value.setWidth 48))

/-- ENV.GATE e (40_env.md R135). -/
def execEnvGate (e : BitVec 4) (s : State) : Answer :=
  .next (s.withOperand (envIndex e) fun k => s.reply .C (if s.env[k].gate then 1 else 0))

end Sys2Proof.Machine
end

