-- ==== Sys2Proof/Machine/Gld.lean ====
section
/-! DEFINITION. GLD, the glide stage (43_glide.md): its operations, shared with VOX, and the meanings of its four commands. -/

namespace Sys2Proof.Machine

/-- `GldCur()`, the current interpolated pitch (43_glide.md R190). -/
def Gld.current (g : Gld) : BitVec 16 := mix16 g.source g.target g.counter

/-- `GldStart(target, g)`: a snap where no glide is wanted, there is no prior pitch, or the increment is 0; else a glide from where the
pitch stands (43_glide.md R193). -/
def Gld.start (g : Gld) (target : BitVec 16) (wanted : Bool) : Gld :=
  let snap := wanted = false ∨ g.source = 0 ∨ g.inc = 0
  { g with source := if snap then target else g.current, target := target, counter := 0 }

/-- The ramp part of `GldRender()`: the counter advances, or, where it wraps, the glide is complete (43_glide.md R195). -/
def Gld.ramp (g : Gld) : Gld :=
  let c := g.counter + g.inc
  if overflowed c g.inc then { g with source := g.target, counter := 0 } else { g with counter := c }

/-- `GldRender()`, whose result is the pitch it leaves (43_glide.md R195). -/
def Gld.render (g : Gld) : Gld := { g.ramp with pitch := g.ramp.current }

/-- What GLD.INIT restores; the increment keeps its value (43_glide.md R191). -/
def Gld.init (g : Gld) : Gld := { g with source := 0, target := 0, counter := 0, pitch := 0 }

/-- GLD.INIT (43_glide.md R191). -/
def execGldInit (s : State) : Answer := .next (State.reply { s with gld := s.gld.init } .C 0)

/-- GLD.SETINC inc (43_glide.md R192). -/
def execGldSetinc (inc : BitVec 16) (s : State) : Answer :=
  .next (State.reply { s with gld := { s.gld with inc := inc } } .C 0)

/-- GLD.START target, g (43_glide.md R193). -/
def execGldStart (target : BitVec 16) (g : Bool) (s : State) : Answer :=
  .next (State.reply { s with gld := s.gld.start target g } .C 0)

/-- GLD.RENDER (43_glide.md R195). -/
def execGldRender (s : State) : Answer :=
  .next (State.reply { s with gld := s.gld.render } .C (s.gld.render.pitch.setWidth 48))

end Sys2Proof.Machine
end

