-- ==== Sys2Proof/Machine/Lfo.lean ====
section
/-! DEFINITION. LFO, the low-frequency oscillator (41_lfo.md): its operations, shared with VOX, and the meanings of its five commands. -/

namespace Sys2Proof.Machine

/-- Whether a render of this shape takes a draw: at a wrap for the three held shapes, always for NOISE (41_lfo.md R156). -/
def Shape.redraws (s : Shape) (wrapped : Bool) : Bool :=
  match s with
  | .triangle | .square | .rampUp | .rampDown => false
  | .sampleAndHold | .bernouilli | .lines => wrapped
  | .noise => true

/-- The cached random values after a draw `x`: LINES alone keeps the value before it (41_lfo.md R156). -/
def Lfo.cache (l : Lfo) (x : BitVec 16) : Lfo :=
  { l with cur := x, prev := if l.shape = .lines then l.cur else l.prev }

/-- The triangle: rising through the first half cycle, falling through the second (41_lfo.md R155). -/
def triangle (p : BitVec 16) : BitVec 16 := if p < 0x8000 then 2 * p else 65535 - 2 * p

/-- The output of an LFO at the high half `p` of its phase, from the cached values (41_lfo.md R155, R156). -/
def Lfo.output (l : Lfo) (p : BitVec 16) : BitVec 16 :=
  match l.shape with
  | .triangle => triangle p
  | .square => if p < 0x8000 then 0 else 65535
  | .rampUp => p
  | .rampDown => 65535 - p
  | .sampleAndHold => l.cur
  | .bernouilli => if l.cur.getLsbD 15 then 65535 else 0
  | .lines => mix16 l.prev l.cur p
  | .noise => l.cur

/-- `LfoRender(l)`, whose result is the value it leaves, with the random input after it (41_lfo.md R154). -/
def Lfo.render (l : Lfo) (r : Rng) : Lfo × Rng :=
  let ph := l.phase + l.inc
  let draws := Shape.redraws l.shape (overflowed ph l.inc)
  let l' := if draws then Lfo.cache { l with phase := ph } r.draw.1 else { l with phase := ph }
  ({ l' with value := l'.output (ph.extractLsb' 16 16) }, if draws then r.draw.2 else r)

/-- What LFO.INIT restores; the increment and the shape keep their values (41_lfo.md R151). -/
def Lfo.init (l : Lfo) : Lfo := { l with phase := 0, lastPh := 0, cur := 0, prev := 0, value := 0 }

/-- `U`, the ideal phase advance for one of 24 ticks (41_lfo.md R158). -/
def idealAdvance : Nat := 2 ^ 32 / 24

/-- `LfoSync(l, step)`: the proportional and the derivative error, summed without wrap, scaled and added to the increment, clamped
(41_lfo.md R158). -/
def Lfo.sync (cfg : Config) (l : Lfo) (step : BitVec 8) : Lfo :=
  let target := BitVec.ofNat 32 (step.toNat % 24 * idealAdvance)
  let delta := l.phase - l.lastPh
  let dErr := (BitVec.ofNat 32 idealAdvance - delta).toInt
  let pErr := (target - l.phase).toInt
  let adj := asr (dErr + pErr) cfg.pllShift
  { l with
    inc := BitVec.ofInt 32 (clamp (l.inc.toNat + adj) cfg.lfoIncMin.toNat cfg.lfoIncMax.toNat)
    lastPh := l.phase }

/-- LFO.INIT l (41_lfo.md R151). -/
def execLfoInit (l : BitVec 4) (s : State) : Answer :=
  .next (s.withOperand (lfoIndex l) fun k => (s.setLfo k s.lfo[k].init).reply .C 0)

/-- LFO.SETSHAPE l, shape (41_lfo.md R152). -/
def execLfoSetshape (l : BitVec 4) (shape : BitVec 3) (s : State) : Answer :=
  .next (s.withOperand (lfoIndex l) fun k => (s.setLfo k { s.lfo[k] with shape := Shape.ofCode shape }).reply .C 0)

/-- LFO.SETINC l, inc (41_lfo.md R153). -/
def execLfoSetinc (l : BitVec 4) (inc : BitVec 32) (s : State) : Answer :=
  .next (s.withOperand (lfoIndex l) fun k => (s.setLfo k { s.lfo[k] with inc := inc }).reply .C 0)

/-- LFO.RENDER l (41_lfo.md R154). -/
def execLfoRender (l : BitVec 4) (s : State) : Answer :=
  .next (s.withOperand (lfoIndex l) fun k =>
    let x := s.lfo[k].render s.rng
    State.reply { s.setLfo k x.1 with rng := x.2 } .C (x.1.value.setWidth 48))

/-- LFO.SYNC l, step (41_lfo.md R158). -/
def execLfoSync (l : BitVec 4) (step : BitVec 8) (s : State) (cfg : Config := config) : Answer :=
  .next (s.withOperand (lfoIndex l) fun k => (s.setLfo k (s.lfo[k].sync cfg step)).reply .C 0)

end Sys2Proof.Machine
end

