-- ==== Sys2Proof/Machine/Vox.lean ====
section
/-! DEFINITION. VOX, the voice operations (45_voice.md), which drive the other units together: the meanings of its nine commands, and the
later turns of VOX.REFRESH (60_exceptions.md R277). -/

namespace Sys2Proof.Machine

/-- What VOX.INIT restores; the legato mode and the context keep their values (45_voice.md R220). -/
def Vox.init (v : Vox) : Vox := { v with retrig := false, velocity := 0, accent := false }

/-- Every envelope triggered into segment `g` (45_voice.md R221, R222). -/
def State.triggerAll (s : State) (g : Segment) : State := { s with env := mapAll (fun e => e.trigger g) s.env }

/-- `GateOn()`: the retrigger flag is raised if the voice was gated; then every attack starts (45_voice.md R221). -/
def State.gateOn (s : State) : State :=
  State.triggerAll { s with vox := { s.vox with retrig := s.vox.retrig || s.gated } } .attack

/-- The pitch of a note, in units of 1/128 semitone (00_scope.md R12). -/
def pitchOfNote (note : BitVec 7) : BitVec 16 := BitVec.ofNat 16 (note.toNat * 128)

/-- The velocity with the accent merged in, capped at 127 (45_voice.md R224). -/
def mergeAccent (cfg : Config) (velocity : BitVec 7) (accent : Bool) : BitVec 7 :=
  if accent then BitVec.ofNat 7 (min 127 (velocity.toNat + cfg.accentBoost)) else velocity

/-- `NoteOn(note, velocity, slide, accent, legato)`; `slide` has no effect inside the block (45_voice.md R224). -/
def State.noteOn (cfg : Config) (s : State) (note velocity : BitVec 7) (accent legato : Bool) : State :=
  let s' : State := { s with
    gld := s.gld.start (pitchOfNote note) (s.vox.legatoMode || legato)
    vox := { s.vox with velocity := mergeAccent cfg velocity accent, accent := accent } }
  if legato then s' else s'.gateOn

/-- The two LFOs rendered in the order of their instances, which is the order of their draws (45_voice.md R228). -/
def renderLfos (v : Vector Lfo nLfo) (r : Rng) : Vector Lfo nLfo × Rng :=
  let x := v[0].render r
  let y := v[1].render x.2
  (#v[x.1, y.1], y.2)

/-- `Sample()` past its full test, without its result: glide, envelopes, LFOs, the modulation sum, then the ring write
(45_voice.md R228). -/
def State.sample (cfg : Config) (s : State) : State :=
  let gld := s.gld.render
  let env := mapAll (Env.render cfg) s.env
  let lfos := renderLfos s.lfo s.rng
  let x := cfg.voiceMix
    { pitch := gld.pitch, env := mapAll (fun e => e.value) env, lfo := mapAll (fun l => l.value) lfos.1
      velocity := s.vox.velocity, accent := s.vox.accent, ctx := s.vox.ctx }
  { s with
    gld := gld
    env := env
    lfo := lfos.1
    rng := lfos.2
    cvd := Cvd.write cfg { s.cvd with input := quadMap saturate32 x } }

/-- One turn of the loop of `Refresh()` after `n` samples: it ends the command where the ring is full, else writes one more sample
(45_voice.md R229). -/
def State.refreshTurn (cfg : Config) (s : State) (n : Nat) : State :=
  if s.cvd.writable = 0 then State.reply { s with ctl := .idle } .C (BitVec.ofNat 48 n)
  else { s.sample cfg with ctl := .voxRefresh (n + 1) }

/-- VOX.INIT (45_voice.md R220). -/
def execVoxInit (s : State) : Answer := .next (State.reply { s with vox := s.vox.init } .C 0)

/-- VOX.GATE_ON (45_voice.md R221). -/
def execVoxGateOn (s : State) : Answer := .next (s.gateOn.reply .C 0)

/-- VOX.GATE_OFF (45_voice.md R222). -/
def execVoxGateOff (s : State) : Answer := .next ((s.triggerAll .release).reply .C 0)

/-- VOX.NOTE_ON note, velocity, slide, accent, legato (45_voice.md R224). -/
def execVoxNoteOn (note velocity : BitVec 7) (_slide accent legato : Bool) (s : State) (cfg : Config := config) : Answer :=
  .next ((s.noteOn cfg note velocity accent legato).reply .C 0)

/-- VOX.SAMPLE: rejected with code 5 where the ring is full, before anything is rendered; its result is the slot just stored
(45_voice.md R228). -/
def execVoxSample (s : State) (cfg : Config := config) : Answer :=
  .next (if s.cvd.writable = 0 then s.reject .C .ringFull
    else (s.sample cfg).reply .C (pack (s.sample cfg).cvd.slot[s.cvd.wptr.toNat]))

/-- VOX.REFRESH: the first turn of its loop (45_voice.md R229). -/
def execVoxRefresh (s : State) (cfg : Config := config) : Answer := .next (s.refreshTurn cfg 0)

/-- VOX.SETCTX offset, value (45_voice.md R230). -/
def execVoxSetctx (offset : BitVec 5) (value : BitVec 8) (s : State) : Answer :=
  .next (State.reply { s with vox := { s.vox with ctx := s.vox.ctx.set offset.toNat value } } .C 0)

/-- VOX.SETLEGATO flag (45_voice.md R232). -/
def execVoxSetlegato (flag : Bool) (s : State) : Answer :=
  .next (State.reply { s with vox := { s.vox with legatoMode := flag } } .C 0)

/-- VOX.RDRETRIG: the flag is read and cleared (45_voice.md R231). -/
def execVoxRdretrig (s : State) : Answer :=
  .next (State.reply { s with vox := { s.vox with retrig := false } } .C (if s.vox.retrig then 1 else 0))

end Sys2Proof.Machine
end

