-- ==== Sys2Proof/Machine/Sys.lean ====
section
/-! DEFINITION. SYS: no-op, reset and register read-out (46_sys.md). -/

namespace Sys2Proof.Machine

/-- The SYS registers after reset (10_state.md R24, R25). -/
def Sys.cleared : Sys := { err := false, underrun := false, errCode := 0 }

/-- `SysReset()`: the INIT of every unit, then the two SYS registers; registers whose reset value is unspecified, the streams and the
random input keep their values (46_sys.md R241). DEDUCED: so do the model's own fields (notes/assumptions/16.md); unsafe. -/
def State.sysReset (s : State) : State :=
  { s with
    env := mapAll Env.init s.env
    lfo := mapAll Lfo.init s.lfo
    clk := s.clk.init
    gld := s.gld.init
    cvd := s.cvd.init
    vox := s.vox.init
    sys := Sys.cleared }

/-- A flag as a 48-bit value. -/
def flagWord (b : Bool) : ResultWord := if b then 1 else 0

/-- The value of a register, zero-extended to 48 bits; signed registers as their two's-complement pattern (46_sys.md R242). -/
def State.readReg (s : State) (r : Reg) : ResultWord :=
  match r with
  | .sysStatus => s.sys.status.setWidth 48
  | .sysErrcode => s.sys.errCode.setWidth 48
  | .envSeg e => s.env[e].seg.code.setWidth 48
  | .envPhase e => s.env[e].phase.setWidth 48
  | .envValue e => s.env[e].value.setWidth 48
  | .envA e => s.env[e].a.setWidth 48
  | .envB e => s.env[e].b.setWidth 48
  | .envInc e g => (s.env[e].inc g).setWidth 48
  | .envTarget e g => (s.env[e].target g).setWidth 48
  | .lfoPhase l => s.lfo[l].phase.setWidth 48
  | .lfoInc l => s.lfo[l].inc.setWidth 48
  | .lfoShape l => s.lfo[l].shape.code.setWidth 48
  | .lfoCur l => s.lfo[l].cur.setWidth 48
  | .lfoPrev l => s.lfo[l].prev.setWidth 48
  | .lfoValue l => s.lfo[l].value.setWidth 48
  | .lfoLastph l => s.lfo[l].lastPh.setWidth 48
  | .clkBpm => s.clk.bpm.setWidth 48
  | .clkTemplate => s.clk.template.setWidth 48
  | .clkAmount => s.clk.amount.setWidth 48
  | .clkRes => s.clk.res.setWidth 48
  | .clkCnt => s.clk.cnt.setWidth 48
  | .clkEvents => s.clk.events.setWidth 48
  | .clkTick6 => s.clk.tick6.setWidth 48
  | .clkGidx => s.clk.gidx.setWidth 48
  | .clkPre => s.clk.pre.setWidth 48
  | .clkBase => s.clk.base.setWidth 48
  | .clkDur i => s.clk.dur[i.toNat].setWidth 48
  | .gldSource => s.gld.source.setWidth 48
  | .gldTarget => s.gld.target.setWidth 48
  | .gldCounter => s.gld.counter.setWidth 48
  | .gldInc => s.gld.inc.setWidth 48
  | .gldPitch => s.gld.pitch.setWidth 48
  | .cvdScaleLow => s.cvd.scaleLow.setWidth 48
  | .cvdScaleHigh => s.cvd.scaleHigh.setWidth 48
  | .cvdOffset => s.cvd.offset.setWidth 48
  | .cvdWptr => s.cvd.wptr.setWidth 48
  | .cvdRptr => s.cvd.rptr.setWidth 48
  | .cvdLocked => flagWord s.cvd.locked
  | .cvdOut c => (quadGet s.cvd.out c).setWidth 48
  | .cvdOverride c => (quadGet s.cvd.override c).setWidth 48
  | .cvdIn c => (quadGet s.cvd.input c).setWidth 48
  | .cvdSlot k c => (quadGet s.cvd.slot[k] c).setWidth 48
  | .voxRetrig => flagWord s.vox.retrig
  | .voxVelocity => s.vox.velocity.setWidth 48
  | .voxAccent => flagWord s.vox.accent
  | .voxLegatoMode => flagWord s.vox.legatoMode
  | .voxCtx o => s.vox.ctx[o.toNat].setWidth 48

/-- SYS.NOP (46_sys.md R240). -/
def execSysNop (s : State) : Answer := .next (s.reply .C 0)

/-- SYS.RESET (46_sys.md R241). -/
def execSysReset (s : State) : Answer := .next (s.sysReset.reply .C 0)

/-- SYS.RDREG addr (46_sys.md R242). -/
def execSysRdreg (addr : BitVec 16) (s : State) : Answer :=
  .next (s.withOperand (regOfAddr addr) fun r => s.reply .C (s.readReg r))

end Sys2Proof.Machine
end

