-- ==== Sys2Proof/Machine/Dispatch.lean ====
section
/-! DEFINITION. The meaning of every command: one arm for each constructor of `Instr`. -/

namespace Sys2Proof.Machine

/-- The command `i` performed at `s`, once the word has passed checks 1 to 3 of 30_encoding.md R108: its whole effect, or the first of
its steps where it has several (60_exceptions.md R277). Checks 4 and 5 are part of the meanings. -/
def exec (i : Instr) (s : State) : Host.Outcome State Fault Refusal :=
  match i with
  | .sysNop => Sys2Proof.Machine.execSysNop s
  | .sysReset => Sys2Proof.Machine.execSysReset s
  | .sysRdreg addr => Sys2Proof.Machine.execSysRdreg addr s
  | .envInit e => Sys2Proof.Machine.execEnvInit e s
  | .envUpdate e attack decay sustain release => Sys2Proof.Machine.execEnvUpdate e attack decay sustain release s
  | .envTrigger e seg => Sys2Proof.Machine.execEnvTrigger e seg s
  | .envRender e => Sys2Proof.Machine.execEnvRender e s
  | .envGate e => Sys2Proof.Machine.execEnvGate e s
  | .lfoInit l => Sys2Proof.Machine.execLfoInit l s
  | .lfoSetshape l shape => Sys2Proof.Machine.execLfoSetshape l shape s
  | .lfoSetinc l inc => Sys2Proof.Machine.execLfoSetinc l inc s
  | .lfoRender l => Sys2Proof.Machine.execLfoRender l s
  | .lfoSync l step => Sys2Proof.Machine.execLfoSync l step s
  | .clkInit => Sys2Proof.Machine.execClkInit s
  | .clkUpdate bpm template amount => Sys2Proof.Machine.execClkUpdate bpm template amount s
  | .clkSetres res => Sys2Proof.Machine.execClkSetres res s
  | .clkTick => Sys2Proof.Machine.execClkTick s
  | .clkCount => Sys2Proof.Machine.execClkCount s
  | .gldInit => Sys2Proof.Machine.execGldInit s
  | .gldSetinc inc => Sys2Proof.Machine.execGldSetinc inc s
  | .gldStart target g => Sys2Proof.Machine.execGldStart target g s
  | .gldRender => Sys2Proof.Machine.execGldRender s
  | .cvdInit => Sys2Proof.Machine.execCvdInit s
  | .cvdSetcal scaleLow scaleHigh offset => Sys2Proof.Machine.execCvdSetcal scaleLow scaleHigh offset s
  | .cvdSetin c value => Sys2Proof.Machine.execCvdSetin c value s
  | .cvdWrite => Sys2Proof.Machine.execCvdWrite s
  | .cvdRead => Sys2Proof.Machine.execCvdRead s
  | .cvdReadable => Sys2Proof.Machine.execCvdReadable s
  | .cvdWritable => Sys2Proof.Machine.execCvdWritable s
  | .cvdLock vco pw vcf vca => Sys2Proof.Machine.execCvdLock vco pw vcf vca s
  | .cvdUnlock => Sys2Proof.Machine.execCvdUnlock s
  | .voxInit => Sys2Proof.Machine.execVoxInit s
  | .voxGateOn => Sys2Proof.Machine.execVoxGateOn s
  | .voxGateOff => Sys2Proof.Machine.execVoxGateOff s
  | .voxNoteOn note velocity slide accent legato => Sys2Proof.Machine.execVoxNoteOn note velocity slide accent legato s
  | .voxSample => Sys2Proof.Machine.execVoxSample s
  | .voxRefresh => Sys2Proof.Machine.execVoxRefresh s
  | .voxSetctx offset value => Sys2Proof.Machine.execVoxSetctx offset value s
  | .voxSetlegato flag => Sys2Proof.Machine.execVoxSetlegato flag s
  | .voxRdretrig => Sys2Proof.Machine.execVoxRdretrig s

end Sys2Proof.Machine
end

