-- ==== Sys2Proof/Machine/Ports.lean ====
section
/-! DEFINITION. The two ports and the steps they take: which port is next (20_memory.md R81, 60_exceptions.md R276), the taking of a
command word (10_state.md R21, 20_memory.md R87), and the later steps of a port-C command (60_exceptions.md R277). -/

namespace Sys2Proof.Machine

/-- The registers of one port. -/
def State.port (s : State) (p : Port) : PortState :=
  match p with
  | .C => s.portC
  | .T => s.portT

/-- The state with the registers of one port replaced. -/
def State.setPort (s : State) (p : Port) (x : PortState) : State :=
  match p with
  | .C => { s with portC := x }
  | .T => { s with portT := x }

/-- The port that takes the next step: the one the interleaving names; where it names none, port T if a command waits there, as the
port of higher priority (60_exceptions.md R276), else port C. DESIGN CHOICE (notes/assumptions/5.md); unsafe where it names none. -/
def State.activePort (s : State) : Port :=
  match s.schedule with
  | p :: _ => p
  | [] => if s.portT.pending.isEmpty then .C else .T

/-- One entry of the interleaving used up. -/
def State.consumeSchedule (s : State) : State := { s with schedule := s.schedule.tail }

/-- The word that port `p` has yet to take first, if any. -/
def State.head (s : State) (p : Port) : Option CommandWord := (s.port p).pending.head?

/-- The first word leaves the stream of port `p`: the command index advances by one, and the response of the command before it is no
longer held (10_state.md R21, 20_memory.md R87). DEDUCED: the index advances when the word is taken (notes/assumptions/6.md); safe. -/
def State.take (s : State) (p : Port) : State :=
  s.setPort p { pending := (s.port p).pending.tail, index := (s.port p).index + 1, response := none }

/-- The next step of the port-C command in progress; between two commands there is none (60_exceptions.md R277). -/
def State.continueC (cfg : Config) (s : State) : State :=
  match s.ctl with
  | .idle => s
  | .clkCount n => s.finishClkCount n
  | .clkUpdate i => s.continueClkUpdate cfg i
  | .voxRefresh n => s.refreshTurn cfg n

/-- Whether port `p` is free to take a command: port T always, port C between two commands (60_exceptions.md R277). -/
def State.free (s : State) (p : Port) : Bool :=
  match p with
  | .C => s.ctl == .idle
  | .T => true

/-- The host puts a command word first on the port that accepts it, names that port for the next step, and lets port C be free: all it
takes for the very next step to take that word (notes/assumptions/4.md). -/
def State.present (s : State) (w : CommandWord) : State :=
  let p := portOfWord w
  let s' := s.setPort p { s.port p with pending := w :: (s.port p).pending }
  { s' with schedule := p :: s'.schedule, ctl := match p with | .C => .idle | .T => s'.ctl }

end Sys2Proof.Machine
end

