-- ==== Sys2Proof/Machine/Step.lean ====
section
/-! DEFINITION. One step of the block (20_memory.md R81): the port whose turn it is takes a command, or, on port C, goes on with the
command in progress. -/

namespace Sys2Proof.Machine

/-- The command word `w` issued on port `p`: rejected by checks 1 to 3 of 30_encoding.md R108, or performed. -/
def issue (p : Port) (w : CommandWord) (s : State) : Host.Outcome State Fault Refusal :=
  match decodeOn p w with
  | .error k => .next (s.reject p k)
  | .ok i => exec i s

/-- One step. A port with nothing to do leaves every register as it is (70_reset_and_hazards.md R314; DESIGN CHOICE,
notes/assumptions/4.md, safe). No step stops (60_exceptions.md R270; notes/assumptions/14.md). -/
def step (s : State) : Host.Outcome State Fault Refusal :=
  let p := s.activePort
  let s' := s.consumeSchedule
  if s.free p then
    match s.head p with
    | some w => issue p w (s'.take p)
    | none => .next s'
  else .next (s'.continueC config)

/-- The state with one command word, its low `nbits` bits those of `w`, presented so that the very next step takes it. -/
def State.withFetchWord (s : State) (nbits w : Nat) : State := s.present (tableWord nbits w)

end Sys2Proof.Machine
end

