-- ==== Sys2Proof/Safety.lean ====
section
/-! DEFINITION. What counts as a good state of the block: the invariants that 10_state.md states of its registers, as one predicate; the
states that power-on may leave; and the ring seen as a queue. -/

namespace Sys2Proof.Machine

/-- What holds of an envelope between two commands (10_state.md R31, R35; 40_env.md R133, R137, R138). -/
structure Env.Legal (e : Env) : Prop where
  /-- a holding segment stands at phase 0, at its start value -/
  holds : e.seg = .sustain ∨ e.seg = .dead → e.phase = 0 ∧ e.value = e.a
  /-- the attack rises from zero to full scale -/
  attack : e.seg = .attack → e.a = 0 ∧ e.b = 65535
  /-- the release falls to zero -/
  release : e.seg = .release → e.b = 0
  /-- the dead envelope is zero -/
  dead : e.seg = .dead → e.a = 0 ∧ e.b = 0
  /-- the value never leaves the interval between start and target -/
  between : min e.a.toNat e.b.toNat ≤ e.value.toNat ∧ e.value.toNat ≤ max e.a.toNat e.b.toNat

/-- The invariants of the clock registers (10_state.md R41, R42, R44). -/
structure Clk.Legal (cfg : Config) (c : Clk) : Prop where
  bpm : c.bpm ≠ 0
  template : c.template.toNat < cfg.nGroove
  dur : ∀ i : Fin 16, 1 ≤ c.dur[i].toNat
  res : c.res = 1 ∨ c.res = 2 ∨ c.res = 6
  tick6 : c.tick6.toNat ≤ 5
  pre : c.pre.toNat ≤ 5

/-- `ERRCODE` is 0 exactly while no command has been rejected, and never above 5 (10_state.md R25, 60_exceptions.md R273). -/
structure Sys.Legal (y : Sys) : Prop where
  none : y.err = false → y.errCode = 0
  some : y.err = true → 1 ≤ y.errCode.toNat ∧ y.errCode.toNat ≤ 5

/-- The later steps of CLK.UPDATE write entries 1 to 15 (60_exceptions.md R277). -/
def Control.Legal : Control → Prop
  | .clkUpdate i => i ≠ 0
  | .idle | .clkCount _ | .voxRefresh _ => True

/-- The invariant of the block, under a configuration. -/
structure State.Legal (cfg : Config) (s : State) : Prop where
  env : ∀ e : Fin nEnv, s.env[e].Legal
  clk : s.clk.Legal cfg
  sys : s.sys.Legal
  ctl : s.ctl.Legal

/-- The states that power-on may leave (10_state.md R23; 70_reset_and_hazards.md R301, R302): every register with a specified reset
value holds it, every other register holds any value within its invariant; the input streams and the interleaving are whatever the run
gives (notes/assumptions/10.md). That both command indices start at 0 is the model's choice (DESIGN CHOICE, notes/assumptions/17.md). -/
structure State.PowerOn (cfg : Config) (s : State) : Prop where
  sys : s.sys = { err := false, underrun := false, errCode := 0 }
  env : ∀ e : Fin nEnv, s.env[e] = { s.env[e] with seg := .dead, phase := 0, value := 0, a := 0, b := 0 }
  lfo : ∀ l : Fin nLfo, s.lfo[l] = { s.lfo[l] with phase := 0, cur := 0, prev := 0, value := 0, lastPh := 0 }
  clkCounters : s.clk = { s.clk with cnt := 0, events := 0, tick6 := 0, gidx := 0, pre := 0 }
  clkParameters : s.clk.Legal cfg
  gld : s.gld = { s.gld with source := 0, target := 0, counter := 0, pitch := 0 }
  cvd : s.cvd = { s.cvd with wptr := 0, rptr := 0, locked := false, out := Quad.all 0 }
  vox : s.vox = { s.vox with retrig := false, velocity := 0, accent := false }
  ctl : s.ctl = .idle
  indices : s.portC.index = 0 ∧ s.portT.index = 0
  responses : s.portC.response = none ∧ s.portT.response = none

/-- `n` slots of the ring, from slot `k` on. -/
def Cvd.slotsFrom (c : Cvd) (k : BitVec 2) : Nat → List DacState
  | 0 => []
  | n + 1 => c.slot[k.toNat] :: c.slotsFrom (k + 1) n

/-- The samples written and not yet read, oldest first: the slots `RPTR .. WPTR - 1` (44_cvdac.md R211). -/
def Cvd.waiting (c : Cvd) : List DacState := c.slotsFrom c.rptr c.readable.toNat

/-- The state with both responses dropped, which no command can read (30_encoding.md R104). -/
def State.dropResponses (s : State) : State :=
  { s with portC := { s.portC with response := none }, portT := { s.portT with response := none } }

/-- The word that the coming step takes, with its port, where that step takes one. -/
def State.coming (s : State) : Option (Port × CommandWord) :=
  if s.free s.activePort then (s.head s.activePort).map (fun w => (s.activePort, w)) else none

/-- The command that the coming step performs: the word it takes decodes to it on that port. -/
def State.Performs (s : State) (i : Instr) : Prop :=
  ∃ p w, s.coming = some (p, w) ∧ decodeOn p w = .ok i

end Sys2Proof.Machine
end

