-- ==== Sys2Proof/WellFormed.lean ====
section
/-! DEFINITION. Well-formed commands: every operand in its legal range (30_encoding.md R106). -/

namespace Sys2Proof

open Machine

/-- Whether every operand of a command is in the legal range R106 gives it under the configuration `cfg`. -/
def Instr.wellFormed (i : Instr) (cfg : Config := config) : Bool :=
  match i with
  | .sysRdreg addr => (regOfAddr addr).isSome
  | .envInit e => (envIndex e).isSome
  | .envUpdate e _ _ _ _ => (envIndex e).isSome
  | .envTrigger e seg => (envIndex e).isSome && (Segment.ofCode seg).isSome
  | .envRender e => (envIndex e).isSome
  | .envGate e => (envIndex e).isSome
  | .lfoInit l => (lfoIndex l).isSome
  | .lfoSetshape l _ => (lfoIndex l).isSome
  | .lfoSetinc l _ => (lfoIndex l).isSome
  | .lfoRender l => (lfoIndex l).isSome
  | .lfoSync l _ => (lfoIndex l).isSome
  | .clkUpdate bpm template _ => (legalUpdate cfg bpm template).isSome
  | .clkSetres res => (legalRes res).isSome
  | .cvdSetin c _ => (channelIndex c).isSome
  | .sysNop | .sysReset
  | .clkInit | .clkTick | .clkCount
  | .gldInit | .gldSetinc _ | .gldStart _ _ | .gldRender
  | .cvdInit | .cvdSetcal _ _ _ | .cvdWrite | .cvdRead | .cvdReadable | .cvdWritable | .cvdLock _ _ _ _ | .cvdUnlock
  | .voxInit | .voxGateOn | .voxGateOff | .voxNoteOn _ _ _ _ _ | .voxSample | .voxRefresh | .voxSetctx _ _ | .voxSetlegato _
  | .voxRdretrig => true

end Sys2Proof
end

