-- ==== Sys2Proof/Certificates/Slice0/Obligations.lean ====
section
/-! DEFINITION. The statements for the provers, drawn from the numbered rules of spec/. Helper definitions they share stand first, under
`Sys2Proof.Claims`. Every statement holds for the uninterpreted `config`, so for every configuration that 00_scope.md R7 admits. -/

namespace Sys2Proof.Claims

open Sys2Proof Sys2Proof.Machine

/-- The forty opcodes of 30_encoding.md R105. -/
def opcodes : List (BitVec 8) :=
  [0x00, 0x01, 0x02] ++ [0x10, 0x11, 0x12, 0x13, 0x14] ++ [0x20, 0x21, 0x22, 0x23, 0x24] ++ [0x30, 0x31, 0x32, 0x33, 0x34] ++
  [0x40, 0x41, 0x42, 0x43] ++ [0x50, 0x51, 0x52, 0x53, 0x54, 0x55, 0x56, 0x57, 0x58] ++
  [0x60, 0x61, 0x62, 0x63, 0x64, 0x65, 0x66, 0x67, 0x68]

/-- Port T accepts the opcodes of CLK.TICK and CVD.READ and no other (30_encoding.md R103). -/
def tickOpcode (o : BitVec 8) : Prop := o = 0x33 ∨ o = 0x54

/-- The read-out address of every register, from the table of 10_state.md section 10. -/
def addrOf : Reg → Nat
  | .sysStatus => 0x0000
  | .sysErrcode => 0x0001
  | .envSeg e => 0x1000 + 0x100 * e
  | .envPhase e => 0x1001 + 0x100 * e
  | .envValue e => 0x1002 + 0x100 * e
  | .envA e => 0x1003 + 0x100 * e
  | .envB e => 0x1004 + 0x100 * e
  | .envInc e s => 0x1010 + 0x100 * e + s.code.toNat
  | .envTarget e s => 0x1020 + 0x100 * e + s.code.toNat
  | .lfoPhase l => 0x2000 + 0x100 * l
  | .lfoInc l => 0x2001 + 0x100 * l
  | .lfoShape l => 0x2002 + 0x100 * l
  | .lfoCur l => 0x2003 + 0x100 * l
  | .lfoPrev l => 0x2004 + 0x100 * l
  | .lfoValue l => 0x2005 + 0x100 * l
  | .lfoLastph l => 0x2006 + 0x100 * l
  | .clkBpm => 0x3000
  | .clkTemplate => 0x3001
  | .clkAmount => 0x3002
  | .clkRes => 0x3003
  | .clkCnt => 0x3004
  | .clkEvents => 0x3005
  | .clkTick6 => 0x3006
  | .clkGidx => 0x3007
  | .clkPre => 0x3008
  | .clkBase => 0x3009
  | .clkDur i => 0x3010 + i.toNat
  | .gldSource => 0x4000
  | .gldTarget => 0x4001
  | .gldCounter => 0x4002
  | .gldInc => 0x4003
  | .gldPitch => 0x4004
  | .cvdScaleLow => 0x5000
  | .cvdScaleHigh => 0x5001
  | .cvdOffset => 0x5002
  | .cvdWptr => 0x5003
  | .cvdRptr => 0x5004
  | .cvdLocked => 0x5005
  | .cvdOut c => 0x5010 + c
  | .cvdOverride c => 0x5020 + c
  | .cvdIn c => 0x5030 + c
  | .cvdSlot k c => 0x5040 + 4 * k + c
  | .voxRetrig => 0x6000
  | .voxVelocity => 0x6001
  | .voxAccent => 0x6002
  | .voxLegatoMode => 0x6003
  | .voxCtx o => 0x6020 + o.toNat

/-- Channel `c` of a quad, in the order VCO, PW, VCF, VCA (00_scope.md R15). -/
def channel {α : Type} (q : Quad α) (c : Fin 4) : α := #v[q.vco, q.pw, q.vcf, q.vca][c]

/-- The code of a shape, its place in the order of 10_state.md R38. -/
def shapeNumber : Shape → Nat
  | .triangle => 0
  | .square => 1
  | .rampUp => 2
  | .rampDown => 3
  | .sampleAndHold => 4
  | .bernouilli => 5
  | .lines => 6
  | .noise => 7

/-- The code of a segment, its place in the order of 10_state.md R31. -/
def segmentNumber : Segment → Nat
  | .attack => 0
  | .decay => 1
  | .sustain => 2
  | .release => 3
  | .dead => 4

/-- A flag as a number. -/
def flagNumber (b : Bool) : Nat := if b then 1 else 0

/-- The value of every register as a number; the two signed kinds modulo two to their width (10_state.md R24 to R55; 46_sys.md R242). -/
def registerNumber (s : State) : Reg → Nat
  | .sysStatus => flagNumber s.sys.err + 2 * flagNumber s.sys.underrun
  | .sysErrcode => s.sys.errCode.toNat
  | .envSeg e => segmentNumber s.env[e].seg
  | .envPhase e => s.env[e].phase.toNat
  | .envValue e => s.env[e].value.toNat
  | .envA e => s.env[e].a.toNat
  | .envB e => s.env[e].b.toNat
  | .envInc e .attack => s.env[e].incAttack.toNat
  | .envInc e .decay => s.env[e].incDecay.toNat
  | .envInc e .release => s.env[e].incRelease.toNat
  | .envInc _ .sustain | .envInc _ .dead => 0
  | .envTarget _ .attack => 65535
  | .envTarget e .decay | .envTarget e .sustain => s.env[e].sustainLevel.toNat
  | .envTarget _ .release | .envTarget _ .dead => 0
  | .lfoPhase l => s.lfo[l].phase.toNat
  | .lfoInc l => s.lfo[l].inc.toNat
  | .lfoShape l => shapeNumber s.lfo[l].shape
  | .lfoCur l => s.lfo[l].cur.toNat
  | .lfoPrev l => s.lfo[l].prev.toNat
  | .lfoValue l => s.lfo[l].value.toNat
  | .lfoLastph l => s.lfo[l].lastPh.toNat
  | .clkBpm => s.clk.bpm.toNat
  | .clkTemplate => s.clk.template.toNat
  | .clkAmount => s.clk.amount.toNat
  | .clkRes => s.clk.res.toNat
  | .clkCnt => s.clk.cnt.toNat
  | .clkEvents => s.clk.events.toNat
  | .clkTick6 => s.clk.tick6.toNat
  | .clkGidx => s.clk.gidx.toNat
  | .clkPre => s.clk.pre.toNat
  | .clkBase => s.clk.base.toNat
  | .clkDur i => s.clk.dur[i.toNat].toNat
  | .gldSource => s.gld.source.toNat
  | .gldTarget => s.gld.target.toNat
  | .gldCounter => s.gld.counter.toNat
  | .gldInc => s.gld.inc.toNat
  | .gldPitch => s.gld.pitch.toNat
  | .cvdScaleLow => s.cvd.scaleLow.toNat
  | .cvdScaleHigh => s.cvd.scaleHigh.toNat
  | .cvdOffset => (s.cvd.offset.toInt % 65536).toNat
  | .cvdWptr => s.cvd.wptr.toNat
  | .cvdRptr => s.cvd.rptr.toNat
  | .cvdLocked => flagNumber s.cvd.locked
  | .cvdOut c => (channel s.cvd.out c).toNat
  | .cvdOverride c => (channel s.cvd.override c).toNat
  | .cvdIn c => ((channel s.cvd.input c).toInt % 4294967296).toNat
  | .cvdSlot k c => (channel s.cvd.slot[k] c).toNat
  | .voxRetrig => flagNumber s.vox.retrig
  | .voxVelocity => s.vox.velocity.toNat
  | .voxAccent => flagNumber s.vox.accent
  | .voxLegatoMode => flagNumber s.vox.legatoMode
  | .voxCtx o => s.vox.ctx[o.toNat].toNat

/-- The legal ranges of the operands, as 30_encoding.md R106 lists them. -/
def InRange (cfg : Config) : Instr → Prop
  | .sysRdreg addr => ∃ r, addrOf r = addr.toNat
  | .envInit e | .envUpdate e _ _ _ _ | .envRender e | .envGate e => e.toNat ≤ 2
  | .envTrigger e seg => e.toNat ≤ 2 ∧ seg.toNat ≤ 4
  | .lfoInit l | .lfoSetshape l _ | .lfoSetinc l _ | .lfoRender l | .lfoSync l _ => l.toNat ≤ 1
  | .clkUpdate bpm template _ => 1 ≤ bpm.toNat ∧ template.toNat ≤ cfg.nGroove - 1
  | .clkSetres res => res.toNat = 1 ∨ res.toNat = 2 ∨ res.toNat = 6
  | .cvdSetin c _ => c.toNat ≤ 3
  | _ => True

/-- `ceil(n / d)`. -/
def ceilDiv (n d : Nat) : Nat := (n + d - 1) / d

/-- The envelope after the completing render: the value snaps to `B` and the next segment begins (40_env.md R134). The two holding
segments never complete. -/
def completed (x : Env) : Env :=
  match x.seg with
  | .attack => { x with seg := .decay, phase := 0, value := x.b, a := x.b, b := x.sustainLevel }
  | .decay => { x with seg := .sustain, phase := 0, value := x.b, a := x.b, b := x.sustainLevel }
  | .release => { x with seg := .dead, phase := 0, value := 0, a := 0, b := 0 }
  | .sustain => x
  | .dead => x

/-- The levels of the four arithmetic shapes at the high half `p` of the phase (41_lfo.md R155); 0 for the random shapes, of which
nothing is claimed with it. -/
def arithmeticLevel (sh : Shape) (p : Nat) : Nat :=
  match sh with
  | .triangle => if p < 0x8000 then 2 * p % 65536 else 65535 - 2 * p % 65536
  | .square => if p < 0x8000 then 0 else 65535
  | .rampUp => p
  | .rampDown => 65535 - p
  | .sampleAndHold | .bernouilli | .lines | .noise => 0

/-- The base duration of 42_clk.md R172, as a number. -/
def baseNumber (cfg : Config) (bpm : Nat) : Nat := min 65535 ((cfg.tempoFactor + 2 * bpm) / (4 * bpm))

/-- The duration of step `i` of 42_clk.md R172, as an integer. -/
def durationNumber (cfg : Config) (template amount : BitVec 8) (base : Nat) (i : BitVec 4) : Int :=
  min (max (base + (cfg.grooveLut template i).toInt * amount.toNat * base / 65536) 1) 65535

/-- Clipping to 12 bits, as an integer (00_scope.md R10). -/
def clipNumber (x : Int) : Int := min (max x 0) 4095

/-- The next step of port C's command, repeated `n` times with nothing between. -/
def continued (n : Nat) (s : State) : State := (State.continueC config)^[n] s

end Sys2Proof.Claims

open Sys2Proof Sys2Proof.Machine Sys2Proof.Claims

/-! ## Encoding -/

/-- Decode and encode agree, in both directions: a word decodes to a command exactly when it is that command's encoding, with every
operand at every value its field admits, and the command's port accepts it (30_encoding.md R101 to R107). -/
def Obligations.DecodeAndEncodeAgree : Prop :=
  ∀ (i : Instr) (w : CommandWord), (decode w = .ok i ↔ encode i = w) ∧ decodeOn i.port (encode i) = .ok i

/-- The encoding examples of 30_encoding.md R112: the words of five commands, which decode to them on their ports.
The spec marks the rule as derived from R101, R105 and R106. -/
def Obligations.EncodingExamplesDecode : Prop :=
  (encode (.envUpdate 0 0 16 128 32) = 0x1100000020801000 ∧ encode (.envTrigger 2 3) = 0x1220000000000003 ∧
    encode (.cvdSetcal 8738 9000 (-100)) = 0x5100FF9C23282222 ∧ encode (.voxNoteOn 60 100 false true false) = 0x630000000002643C ∧
    encode .clkTick = 0x3300000000000000) ∧
  decodeOn .C 0x1100000020801000 = .ok (.envUpdate 0 0 16 128 32) ∧
  decodeOn .C 0x1220000000000003 = .ok (.envTrigger 2 3) ∧
  decodeOn .C 0x5100FF9C23282222 = .ok (.cvdSetcal 8738 9000 (-100)) ∧
  decodeOn .C 0x630000000002643C = .ok (.voxNoteOn 60 100 false true false) ∧
  decodeOn .T 0x3300000000000000 = .ok .clkTick

/-- 30_encoding.md R109: the all-zero word is SYS.NOP; the all-ones word is rejected with code 1, on either port.
The spec marks the rule as derived from R105 and R108. -/
def Obligations.ZeroWordIsNopAndOnesWordIsRejected : Prop :=
  decodeOn .C 0 = .ok .sysNop ∧
  ∀ (p : Port) (s : State), issue p (BitVec.allOnes 64) s = .next (s.reject p .reservedOpcode)

/-- The checks of 30_encoding.md R108, the first failing one giving the code: opcode, port, must-be-zero bits (the word is the
encoding of no command), operand range, ring full. The rule is the spec's decision D5. -/
def Obligations.FirstFailingCheckGivesTheRejectCode : Prop :=
  ∀ (p : Port) (w : CommandWord) (s : State),
    (opcOf w ∉ opcodes → issue p w s = .next (s.reject p .reservedOpcode)) ∧
    (opcOf w ∈ opcodes → ¬ (p = .T ↔ tickOpcode (opcOf w)) → issue p w s = .next (s.reject p .wrongPort)) ∧
    (opcOf w ∈ opcodes → (p = .T ↔ tickOpcode (opcOf w)) → (∀ i, encode i ≠ w) →
      issue p w s = .next (s.reject p .nonzeroReserved)) ∧
    (∀ i, encode i = w → (p = .T ↔ tickOpcode (opcOf w)) → ¬ InRange config i →
      issue p w s = .next (s.reject p .reservedOperand)) ∧
    (∀ i, encode i = w → p = .C → i = .cvdWrite ∨ i = .voxSample → (s.cvd.rptr - s.cvd.wptr - 1 : BitVec 2) = 0 →
      issue p w s = .next (s.reject p .ringFull))

/-- A command is well formed exactly when its operands are in the ranges 30_encoding.md R106 lists, under any configuration. -/
def Obligations.WellFormedMeansOperandsInRange : Prop :=
  ∀ (i : Instr) (cfg : Config), i.wellFormed cfg = true ↔ InRange cfg i

/-! ## Steps, ports and responses -/

/-- Which port takes the step: the one the interleaving names; where it names none, port T exactly when a word waits there
(60_exceptions.md R276; the form is the model's choice, notes/assumptions/5.md); and the coming word is the first of that port's stream,
where the port is free. A step goes on with the command in progress on port C (R277; 20_memory.md R81). Otherwise a step runs the decoded
command: the coming word leaves its stream, the command index advances by one, the response of the command
before it is dropped, one entry of the interleaving is used, and exec runs the command there (10_state.md R21, 20_memory.md R81). The
interleaving, the moment the index advances and the kept response are the model's (notes/assumptions/5.md, 6.md, 7.md). -/
def Obligations.StepRunsTheDecodedCommand : Prop :=
  ∀ (s : State) (w : CommandWord) (i : Instr),
    (∀ p ps, s.schedule = p :: ps → s.activePort = p) ∧
    (s.schedule = [] → (s.activePort = .T ↔ s.portT.pending ≠ [])) ∧
    (∀ p, s.coming = some (p, w) ↔ s.activePort = p ∧ (p = .C → s.ctl = .idle) ∧ (s.port p).pending.head? = some w) ∧
    (s.activePort = .C → s.ctl ≠ .idle → step s = .next (State.continueC config { s with schedule := s.schedule.tail })) ∧
    (s.coming = some (.C, w) → decodeOn .C w = .ok i →
      step s = exec i { s with
        schedule := s.schedule.tail
        portC := { pending := s.portC.pending.tail, index := s.portC.index + 1, response := none } }) ∧
    (s.coming = some (.T, w) → decodeOn .T w = .ok i →
      step s = exec i { s with
        schedule := s.schedule.tail
        portT := { pending := s.portT.pending.tail, index := s.portT.index + 1, response := none } })

/-- A step with a word that checks 1 to 3 refuse: the command is over, its word taken, the first rejection recorded, the response
`RES = 0, REJ = 1`, and nothing else changed (60_exceptions.md R272). The interleaving, the moment the index advances and the kept
response are the model's (notes/assumptions/5.md, 6.md, 7.md). -/
def Obligations.StepRejectsAnIllegalWord : Prop :=
  ∀ (s : State) (w : CommandWord) (k : Reject),
    (s.coming = some (.C, w) → decodeOn .C w = .error k →
      step s = .next { s with
        schedule := s.schedule.tail
        sys := if s.sys.err = true then s.sys else { s.sys with err := true, errCode := k.code }
        portC := { pending := s.portC.pending.tail, index := s.portC.index + 1, response := some ⟨0, true⟩ } }) ∧
    (s.coming = some (.T, w) → decodeOn .T w = .error k →
      step s = .next { s with
        schedule := s.schedule.tail
        sys := if s.sys.err = true then s.sys else { s.sys with err := true, errCode := k.code }
        portT := { pending := s.portT.pending.tail, index := s.portT.index + 1, response := some ⟨0, true⟩ } })

/-- The two ways a command answers, and all they write: a result, or a rejection with its code recorded once (30_encoding.md R104,
60_exceptions.md R272, R273). The statements below are written with them. Keeping the response is the model's choice
(notes/assumptions/7.md). -/
def Obligations.ReplyAndRejectWriteTheResponse : Prop :=
  ∀ (s : State) (res : ResultWord) (k : Reject),
    s.reply .C res = { s with portC := { s.portC with response := some ⟨res, false⟩ } } ∧
    s.reply .T res = { s with portT := { s.portT with response := some ⟨res, false⟩ } } ∧
    s.reject .C k = { s with
      sys := if s.sys.err = true then s.sys else { s.sys with err := true, errCode := k.code }
      portC := { s.portC with response := some ⟨0, true⟩ } } ∧
    s.reject .T k = { s with
      sys := if s.sys.err = true then s.sys else { s.sys with err := true, errCode := k.code }
      portT := { s.portT with response := some ⟨0, true⟩ } } ∧
    [Reject.reservedOpcode, .reservedOperand, .wrongPort, .nonzeroReserved, .ringFull].map Reject.code = [1, 2, 3, 4, 5]

/-- No exception, no trap, no sleep or wait state, no state in which the block stops accepting commands: every step of every state
answers a next state, and so does every word issued on either port (60_exceptions.md R270, R285). A port that has its turn and nothing to
do leaves the block as it is (70_reset_and_hazards.md R314), one entry of the interleaving used; that such a turn is a step is the model's
choice (notes/assumptions/4.md). -/
def Obligations.EveryStepAnswersNextAndIdleTurnsHold : Prop :=
  ∀ s : State,
    (∃ t, step s = .next t) ∧
    (∀ (p : Port) (w : CommandWord), ∃ t, issue p w s = .next t) ∧
    ((s.activePort = .C → s.ctl = .idle) → s.coming = none → step s = .next { s with schedule := s.schedule.tail })

/-- 10_state.md R21: the command index of a port advances by exactly one for each word the port takes, performed or rejected, and
nothing else moves it or the words waiting. That it advances when the word is taken is the model's reading (notes/assumptions/6.md). -/
def Obligations.CommandIndexAdvancesOncePerWord : Prop :=
  ∀ s t : State, step s = .next t →
    (s.coming = none → ∀ p, (t.port p).index = (s.port p).index ∧ (t.port p).pending = (s.port p).pending) ∧
    (∀ p w, s.coming = some (p, w) → (s.port p).pending = w :: (t.port p).pending ∧ (t.port p).index = (s.port p).index + 1 ∧
      ∀ q, q ≠ p → t.port q = s.port q)

/-- The sticky flags of 10_state.md R24, R25: only SYS.RESET clears ERR, ERRCODE and UNDERRUN once set; UNDERRUN is set only by a
CVD.READ that finds the ring empty and the voice not locked. -/
def Obligations.ErrorAndUnderrunAreSticky : Prop :=
  ∀ s t : State, step s = .next t → ¬ s.Performs .sysReset →
    (s.sys.err = true → t.sys.err = true ∧ t.sys.errCode = s.sys.errCode) ∧
    (s.sys.underrun = true → t.sys.underrun = true) ∧
    (s.sys.underrun = false → t.sys.underrun = true →
      s.Performs .cvdRead ∧ s.cvd.locked = false ∧ s.cvd.wptr = s.cvd.rptr)

/-- What port T can touch (20_memory.md R82): the tick counter and the events, the read index and the output, the SYS flags, its own
port; everything else is as before, but the interleaving of the model, of which an entry is used (notes/assumptions/5.md). -/
def Obligations.PortTTouchesOnlyTheTickState : Prop :=
  ∀ s t : State, step s = .next t → s.activePort = .T →
    t = { s with
      sys := t.sys
      clk := { s.clk with cnt := t.clk.cnt, events := t.clk.events }
      cvd := { s.cvd with rptr := t.cvd.rptr, out := t.cvd.out }
      portT := t.portT
      schedule := s.schedule.tail }

/-- The single writer of each ring index (20_memory.md R83; 44_cvdac.md R201, R215): port T never writes WPTR or a slot, and port C
writes RPTR or the output only by CVD.INIT and SYS.RESET. -/
def Obligations.EachRingIndexHasOneWriter : Prop :=
  ∀ s t : State, step s = .next t →
    (s.activePort = .T → t.cvd.wptr = s.cvd.wptr ∧ t.cvd.slot = s.cvd.slot) ∧
    (s.activePort = .C → ¬ s.Performs .cvdInit → ¬ s.Performs .sysReset →
      t.cvd.rptr = s.cvd.rptr ∧ t.cvd.out = s.cvd.out)

/-- Random draws are consumed only by LFO.RENDER, VOX.SAMPLE and the turns of VOX.REFRESH (10_state.md R40). -/
def Obligations.OnlyLfoRendersDraw : Prop :=
  ∀ s t : State, step s = .next t → t.rng ≠ s.rng →
    (∃ l, s.Performs (.lfoRender l)) ∨ s.Performs .voxSample ∨ s.Performs .voxRefresh ∨
      (s.activePort = .C ∧ ∃ n, s.ctl = .voxRefresh n)

/-- CLK.EVENTS moves only by the increment of CLK.TICK, and goes to 0 only by the exchange of CLK.COUNT and by CLK.INIT and SYS.RESET
(20_memory.md R86; 42_clk.md R171, R175, R177). -/
def Obligations.EventsChangeOnlyByTickCountAndReset : Prop :=
  ∀ s t : State, step s = .next t → t.clk.events ≠ s.clk.events →
    (s.Performs .clkTick ∧ t.clk.events = s.clk.events + 1 ∧ t.clk.cnt = 0) ∨
    (s.Performs .clkCount ∧ t.clk.events = 0 ∧ t.ctl = .clkCount s.clk.events) ∨
    ((s.Performs .clkInit ∨ s.Performs .sysReset) ∧ t.clk.events = 0)

/-- RES and REJ are outputs and not state: no later command can read them (30_encoding.md R104). Dropping the responses before a step
changes nothing of what it leaves but the responses. That they are kept in State is the model's choice (notes/assumptions/7.md). -/
def Obligations.NoCommandReadsAResponse : Prop :=
  ∀ s t : State, step s = .next t →
    ∃ u, step s.dropResponses = .next u ∧ u.dropResponses = t.dropResponses

/-- The two port-T commands touch disjoint state, so their order inside one interrupt does not matter (47_host_context.md R251). -/
def Obligations.TickAndReadCommute : Prop :=
  ∀ s a b c d : State, exec .clkTick s = .next a → exec .cvdRead a = .next b → exec .cvdRead s = .next c →
    exec .clkTick c = .next d → b.dropResponses = d.dropResponses

/-! ## SYS -/

/-- SYS.NOP changes no register (46_sys.md R240); SYS.RDREG returns the register at an implemented address and changes no register
(R242), and is rejected with code 2 at any other. -/
def Obligations.NopAndReadOutChangeNoRegister : Prop :=
  ∀ (s : State),
    exec .sysNop s = .next (s.reply .C 0) ∧
    (∀ r : Reg, exec (.sysRdreg (BitVec.ofNat 16 (addrOf r))) s = .next (s.reply .C (s.readReg r))) ∧
    (∀ a : BitVec 16, (∀ r, addrOf r ≠ a.toNat) → exec (.sysRdreg a) s = .next (s.reject .C .reservedOperand))

/-- The read-out map: an address names a register exactly when it is that register's address in the table of 10_state.md section 10. -/
def Obligations.ReadOutAddressMap : Prop :=
  ∀ (a : BitVec 16) (r : Reg), regOfAddr a = some r ↔ addrOf r = a.toNat

/-- What the read-out gives for every register: its value as a number, signed registers modulo two to their width (46_sys.md R242; the
registers: 10_state.md section 10). Apart, those that are not stored as they read: the two flags of SYS.STATUS (10_state.md R24), the
hardwired increments and targets and the shared sustain level (R34, R35), and the signed registers as their bit patterns
(46_sys.md R242). -/
def Obligations.ReadOutOfComputedRegisters : Prop :=
  ∀ (s : State) (e : Fin nEnv) (c : Fin 4),
    (∀ r : Reg, (s.readReg r).toNat = registerNumber s r) ∧
    (s.readReg .sysStatus).toNat = (if s.sys.err = true then 1 else 0) + (if s.sys.underrun = true then 2 else 0) ∧
    s.readReg (.envInc e .sustain) = 0 ∧ s.readReg (.envInc e .dead) = 0 ∧
    s.readReg (.envTarget e .attack) = 65535 ∧ s.readReg (.envTarget e .release) = 0 ∧ s.readReg (.envTarget e .dead) = 0 ∧
    s.readReg (.envTarget e .decay) = s.readReg (.envTarget e .sustain) ∧
    ((s.readReg .cvdOffset).toNat : Int) = s.cvd.offset.toInt % 65536 ∧
    ((s.readReg (.cvdIn c)).toNat : Int) = (quadGet s.cvd.input c).toInt % 4294967296

/-- SYS.RESET: every register with a specified reset value holds it; every other register, the random input, the streams and the
interleaving are left as they are (46_sys.md R241; what it leaves of the model's own fields: notes/assumptions/16.md). -/
def Obligations.ResetCommandRestoresTheResetValues : Prop :=
  ∀ s : State, exec .sysReset s = .next (State.reply
    { s with
      sys := { err := false, underrun := false, errCode := 0 }
      env := s.env.map (fun x => { x with seg := .dead, phase := 0, value := 0, a := 0, b := 0 })
      lfo := s.lfo.map (fun x => { x with phase := 0, cur := 0, prev := 0, value := 0, lastPh := 0 })
      clk := { s.clk with cnt := 0, events := 0, tick6 := 0, gidx := 0, pre := 0 }
      gld := { s.gld with source := 0, target := 0, counter := 0, pitch := 0 }
      cvd := { s.cvd with wptr := 0, rptr := 0, locked := false, out := ⟨0, 0, 0, 0⟩ }
      vox := { s.vox with retrig := false, velocity := 0, accent := false } } .C 0)

/-! ## ENV -/

/-- ENV.INIT and ENV.UPDATE, with all they change (40_env.md R131, R132). -/
def Obligations.EnvInitAndUpdate : Prop :=
  ∀ (e : BitVec 4) (h : e.toNat < nEnv) (s : State) (attack decay sustain release : BitVec 8),
    exec (.envInit e) s = .next (State.reply
      { s with env := s.env.set e.toNat { s.env[e.toNat] with seg := .dead, phase := 0, value := 0, a := 0, b := 0 } } .C 0) ∧
    exec (.envUpdate e attack decay sustain release) s = .next (State.reply
      { s with
        env := s.env.set e.toNat { s.env[e.toNat] with
          incAttack := config.envIncLut attack
          incDecay := config.envIncLut decay
          incRelease := config.envIncLut release
          sustainLevel := BitVec.ofNat 16 (257 * sustain.toNat) } } .C 0)

/-- 40_env.md R135: ENV.GATE returns 1 in ATTACK, DECAY and SUSTAIN, 0 in RELEASE and DEAD, and changes no state; it is rejected with
code 2 for an instance that does not exist, with code 4 where `ARG` is not zero; with the rule's example. -/
def Obligations.EnvGateReportsTheSegment : Prop :=
  (∀ (e : BitVec 4) (h : e.toNat < nEnv) (s : State), exec (.envGate e) s = .next (s.reply .C
    (match s.env[e.toNat].seg with
      | .attack | .decay | .sustain => 1
      | .release | .dead => 0))) ∧
  (∀ (e : BitVec 4) (s : State), nEnv ≤ e.toNat → issue .C (encode (.envGate e)) s = .next (s.reject .C .reservedOperand)) ∧
  (∀ (w : CommandWord) (s : State), opcOf w = 0x14 → w.extractLsb' 0 48 ≠ 0 → issue .C w s = .next (s.reject .C .nonzeroReserved)) ∧
  exec (.envGate 0) State.reset = .next (State.reset.reply .C 0) ∧
  ∀ s t u : State, exec (.envTrigger 0 0) s = .next t → exec (.envTrigger 0 3) t = .next u →
    exec (.envGate 0) t = .next (t.reply .C 1) ∧ exec (.envGate 0) u = .next (u.reply .C 0)

/-- ENV.TRIGGER: ATTACK and DEAD start from zero, the others from the current value; the target of the segment is recorded, the phase
reset (40_env.md R133; the targets: 10_state.md R35). -/
def Obligations.EnvTriggerEntersTheSegment : Prop :=
  ∀ (e : BitVec 4) (h : e.toNat < nEnv) (s : State),
    let x := s.env[e.toNat]
    exec (.envTrigger e 0) s = .next (State.reply
      { s with env := s.env.set e.toNat { x with seg := .attack, phase := 0, value := 0, a := 0, b := 65535 } } .C 0) ∧
    exec (.envTrigger e 1) s = .next (State.reply
      { s with env := s.env.set e.toNat { x with seg := .decay, phase := 0, a := x.value, b := x.sustainLevel } } .C 0) ∧
    exec (.envTrigger e 2) s = .next (State.reply
      { s with env := s.env.set e.toNat { x with seg := .sustain, phase := 0, a := x.value, b := x.sustainLevel } } .C 0) ∧
    exec (.envTrigger e 3) s = .next (State.reply
      { s with env := s.env.set e.toNat { x with seg := .release, phase := 0, a := x.value, b := 0 } } .C 0) ∧
    exec (.envTrigger e 4) s = .next (State.reply
      { s with env := s.env.set e.toNat { x with seg := .dead, phase := 0, value := 0, a := 0, b := 0 } } .C 0)

/-- ENV.RENDER: without overflow the phase advances and the value is the curve's interpolation; with overflow the value snaps to `B`
and the next segment begins. The result is the value left; nothing else changes (40_env.md R134). -/
def Obligations.EnvRenderAdvancesOrCompletes : Prop :=
  ∀ (e : BitVec 4) (h : e.toNat < nEnv) (s : State),
    let x := s.env[e.toNat]
    let ph := x.phase + x.inc x.seg
    let v := mix16 x.a x.b (config.envCurve (ph.extractLsb' 24 8))
    (x.phase.toNat + (x.inc x.seg).toNat < 2 ^ 32 →
      exec (.envRender e) s = .next (State.reply
        { s with env := s.env.set e.toNat { x with phase := ph, value := v } } .C (v.setWidth 48))) ∧
    (2 ^ 32 ≤ x.phase.toNat + (x.inc x.seg).toNat →
      exec (.envRender e) s = .next (State.reply
        { s with env := s.env.set e.toNat (completed x) } .C ((completed x).value.setWidth 48)))

/-- 40_env.md R136: a segment entered by a trigger with constant increment `inc > 0` completes in render `ceil(2^32 / inc)`; the calls
before it leave `PHASE = k * inc` and return the interpolation, that call returns the target exactly and enters the next segment; SUSTAIN
never advances; and the counts of the rule's four increments. The spec marks the rule as derived from R134. -/
def Obligations.EnvSegmentCompletionCount : Prop :=
  (∀ (cfg : Config) (e : Env) (g : Segment), e.inc g ≠ 0 →
    let x := e.trigger g
    let inc := (e.inc g).toNat
    let n := ceilDiv (2 ^ 32) inc
    (∀ k, 1 ≤ k → k < n →
      (Env.render cfg)^[k] x = { x with
        phase := BitVec.ofNat 32 (k * inc)
        value := mix16 x.a x.b (cfg.envCurve ((BitVec.ofNat 32 (k * inc)).extractLsb' 24 8)) }) ∧
    ((Env.render cfg)^[n] x).value = e.target g ∧
    ((Env.render cfg)^[n] x).phase = 0 ∧
    some ((Env.render cfg)^[n] x).seg = Segment.following g) ∧
  (∀ (cfg : Config) (e : Env) (n : Nat), ((Env.render cfg)^[n] (e.trigger .sustain)).seg = .sustain) ∧
  [0x40000000, 0x20000000, 0x10000000, 0x00008000].map (ceilDiv (2 ^ 32)) = [4, 8, 16, 131072]

/-- 40_env.md R137: between a trigger and the completion of its segment the values move monotonically from `A` toward `B` and never
pass `B`. The spec marks the rule as derived from R134, R72 and R10. -/
def Obligations.EnvMovesMonotonicallyToItsTarget : Prop :=
  ∀ (cfg : Config) (e : Env) (g : Segment) (i j : Nat), i ≤ j → j * (e.inc g).toNat < 2 ^ 32 →
    let x := e.trigger g
    let v (k : Nat) : BitVec 16 := ((Env.render cfg)^[k] x).value
    (x.a ≤ x.b → x.a ≤ v i ∧ v i ≤ v j ∧ v j ≤ x.b) ∧
    (x.b ≤ x.a → x.b ≤ v j ∧ v j ≤ v i ∧ v i ≤ x.a)

/-- 40_env.md R138: in SUSTAIN and DEAD a render changes nothing and returns the value, in every legal state; and a SUSTAIN entered by
an explicit trigger holds the value it was entered with, for any number of renders. -/
def Obligations.HoldingSegmentsDoNotMove : Prop :=
  (∀ (e : BitVec 4) (h : e.toNat < nEnv) (s : State), s.env[e.toNat].Legal →
    s.env[e.toNat].seg = .sustain ∨ s.env[e.toNat].seg = .dead →
      exec (.envRender e) s = .next (s.reply .C (s.env[e.toNat].value.setWidth 48))) ∧
  (∀ (cfg : Config) (e : Env) (n : Nat),
    (Env.render cfg)^[n] (e.trigger .sustain) = e.trigger .sustain ∧ (e.trigger .sustain).value = e.value)

/-- 40_env.md R130 with the source's property S1: after ENV.UPDATE with any operands, renders with no trigger lead from ATTACK to
SUSTAIN at the sustain level and stay there, and from RELEASE to DEAD at zero and stay there. -/
def Obligations.EnvelopeRunsToItsHoldingSegment : Prop :=
  ∀ (cfg : Config) (e : Env) (attack decay sustain release : BitVec 8),
    let x := e.update cfg attack decay sustain release
    (∃ n, ∀ k, n ≤ k →
      ((Env.render cfg)^[k] (x.trigger .attack)).seg = .sustain ∧
      ((Env.render cfg)^[k] (x.trigger .attack)).value.toNat = 257 * sustain.toNat) ∧
    (∃ n, ∀ k, n ≤ k →
      ((Env.render cfg)^[k] (x.trigger .release)).seg = .dead ∧
      ((Env.render cfg)^[k] (x.trigger .release)).value = 0)

/-- The interpolation primitive of 00_scope.md R10: exact at 0 and between equal ends, inside its interval, and monotone in the
fraction. -/
def Obligations.MixStaysBetweenItsEnds : Prop :=
  ∀ a b c d : BitVec 16,
    (mix16 a b c).toNat = (a.toNat * (65536 - c.toNat) + b.toNat * c.toNat) / 65536 ∧
    mix16 a b 0 = a ∧ mix16 a a c = a ∧
    (a ≤ b → a ≤ mix16 a b c ∧ mix16 a b c ≤ b) ∧ (b ≤ a → b ≤ mix16 a b c ∧ mix16 a b c ≤ a) ∧
    (a ≤ b → c ≤ d → mix16 a b c ≤ mix16 a b d) ∧ (b ≤ a → c ≤ d → mix16 a b d ≤ mix16 a b c)

/-! ## LFO -/

/-- LFO.INIT, LFO.SETSHAPE (each of the eight codes) and LFO.SETINC, with all they change (41_lfo.md R151 to R153; 10_state.md R38). -/
def Obligations.LfoSetUpCommands : Prop :=
  ∀ (l : BitVec 4) (h : l.toNat < nLfo) (s : State) (inc : BitVec 32) (sh : Shape),
    let x := s.lfo[l.toNat]
    exec (.lfoInit l) s = .next (State.reply
      { s with lfo := s.lfo.set l.toNat { x with phase := 0, lastPh := 0, cur := 0, prev := 0, value := 0 } } .C 0) ∧
    exec (.lfoSetshape l sh.code) s = .next (State.reply { s with lfo := s.lfo.set l.toNat { x with shape := sh } } .C 0) ∧
    exec (.lfoSetinc l inc) s = .next (State.reply { s with lfo := s.lfo.set l.toNat { x with inc := inc } } .C 0) ∧
    [Shape.triangle, .square, .rampUp, .rampDown, .sampleAndHold, .bernouilli, .lines, .noise].map Shape.code =
      [0, 1, 2, 3, 4, 5, 6, 7]

/-- LFO.RENDER with an arithmetic shape: the phase advances modulo 2^32, the value is the shape's function of its high 16 bits, no draw
is consumed and no cached value written (41_lfo.md R154, R155). -/
def Obligations.LfoRenderOfArithmeticShapes : Prop :=
  ∀ (l : BitVec 4) (h : l.toNat < nLfo) (s : State),
    let x := s.lfo[l.toNat]
    let v := arithmeticLevel x.shape ((x.phase.toNat + x.inc.toNat) % 2 ^ 32 / 2 ^ 16)
    x.shape = .triangle ∨ x.shape = .square ∨ x.shape = .rampUp ∨ x.shape = .rampDown →
      exec (.lfoRender l) s = .next (State.reply
        { s with lfo := s.lfo.set l.toNat { x with phase := x.phase + x.inc, value := BitVec.ofNat 16 v } } .C (BitVec.ofNat 48 v))

/-- LFO.RENDER with a random shape: the cached value is redrawn at a wrap, at every call for NOISE; LINES keeps the value before it and
interpolates; exactly one draw is consumed where a value is redrawn, else none (41_lfo.md R154, R156). A draw removes and returns the head
of the random input (10_state.md R40): of the draws already fixed the first; where none is left the next free draw, counted as taken (the
split is the model's choice, notes/assumptions/3.md). -/
def Obligations.LfoRenderOfRandomShapes : Prop :=
  (∀ (x : BitVec 16) (xs : List (BitVec 16)) (n : Nat), Rng.draw ⟨x :: xs, n⟩ = (x, ⟨xs, n⟩)) ∧
  (∀ n : Nat, Rng.draw ⟨[], n⟩ = (Config.freeDraw n, ⟨[], n + 1⟩)) ∧
  ∀ (l : BitVec 4) (h : l.toNat < nLfo) (s : State),
    let x := s.lfo[l.toNat]
    let ph := x.phase + x.inc
    let wrapped := 2 ^ 32 ≤ x.phase.toNat + x.inc.toNat
    let d := s.rng.draw.1
    let c := if wrapped then d else x.cur
    let q := if wrapped then x.cur else x.prev
    let r := if wrapped then s.rng.draw.2 else s.rng
    let v := mix16 q c (ph.extractLsb' 16 16)
    let b : BitVec 16 := if c.toNat < 32768 then 0 else 65535
    (x.shape = .sampleAndHold → exec (.lfoRender l) s = .next (State.reply
      { s with lfo := s.lfo.set l.toNat { x with phase := ph, cur := c, value := c }, rng := r } .C (c.setWidth 48))) ∧
    (x.shape = .bernouilli → exec (.lfoRender l) s = .next (State.reply
      { s with lfo := s.lfo.set l.toNat { x with phase := ph, cur := c, value := b }, rng := r } .C (b.setWidth 48))) ∧
    (x.shape = .lines → exec (.lfoRender l) s = .next (State.reply
      { s with lfo := s.lfo.set l.toNat { x with phase := ph, cur := c, prev := q, value := v }, rng := r } .C (v.setWidth 48))) ∧
    (x.shape = .noise → exec (.lfoRender l) s = .next (State.reply
      { s with lfo := s.lfo.set l.toNat { x with phase := ph, cur := d, value := d }, rng := s.rng.draw.2 } .C (d.setWidth 48)))

/-- LFO.SYNC: the clamped correction of the increment and the recorded phase, nothing else; and the increment it leaves lies in
`LFO_INC_MIN .. LFO_INC_MAX` (41_lfo.md R158). -/
def Obligations.LfoSyncCorrectsTheIncrement : Prop :=
  ∀ (l : BitVec 4) (h : l.toNat < nLfo) (step : BitVec 8) (s : State),
    let x := s.lfo[l.toNat]
    let target : BitVec 32 := BitVec.ofNat 32 (step.toNat % 24 * 178956970)
    let dErr : Int := (178956970 - (x.phase - x.lastPh)).toInt
    let pErr : Int := (target - x.phase).toInt
    let wanted : Int := x.inc.toNat + (dErr + pErr) / 2 ^ config.pllShift
    ∃ inc : BitVec 32,
      exec (.lfoSync l step) s = .next (State.reply
        { s with lfo := s.lfo.set l.toNat { x with inc := inc, lastPh := x.phase } } .C 0) ∧
      (inc.toNat : Int) = min (max wanted config.lfoIncMin.toNat) config.lfoIncMax.toNat ∧
      config.lfoIncMin ≤ inc ∧ inc ≤ config.lfoIncMax

/-- The phase after `k` renders is `PHASE + k * INC` modulo 2^32, the increment and the shape as before (41_lfo.md R154); a shape other
than NOISE never redraws while `INC = 0` (R157). -/
def Obligations.LfoPhaseAdvancesOncePerRender : Prop :=
  ∀ (l : Lfo) (r : Rng) (k : Nat),
    let z := (fun z : Lfo × Rng => z.1.render z.2)^[k] (l, r)
    z.1.phase = l.phase + BitVec.ofNat 32 k * l.inc ∧ z.1.inc = l.inc ∧ z.1.shape = l.shape ∧
    (l.inc = 0 → l.shape ≠ .noise → z.2 = r ∧ z.1.cur = l.cur ∧ z.1.prev = l.prev)

/-! ## CLK -/

/-- CLK.INIT and CLK.SETRES (1, 2 and 6), with all they change (42_clk.md R171, R173); and a prescaler count that CLK.SETRES leaves at or
above a smaller resolution gives a clock event at the next internal tick and goes to 0, whatever the resolution (R173, R177). -/
def Obligations.ClkInitAndSetRes : Prop :=
  (∀ (c : Clk) (n : Nat), c.res.toNat ≤ c.pre.toNat → c.pre.toNat ≤ 5 →
    (Clk.drain c (n + 1)).2 = 1 + (Clk.drain c.advance.1 n).2 ∧ c.advance.1.pre = 0) ∧
  ∀ (s : State) (res : BitVec 8),
    exec .clkInit s = .next (State.reply
      { s with clk := { s.clk with cnt := 0, events := 0, tick6 := 0, gidx := 0, pre := 0 } } .C 0) ∧
    (res = 1 ∨ res = 2 ∨ res = 6 → exec (.clkSetres res) s = .next (State.reply { s with clk := { s.clk with res := res } } .C 0))

/-- CLK.UPDATE with nothing between its sixteen steps: the first writes the parameters and `DUR[0]`; after `j` more, entries 0 to `j`
are new and the others old; after fifteen the command ends with result 0, the whole table rewritten, nothing else changed
(42_clk.md R172; 60_exceptions.md R277; 20_memory.md R86). -/
def Obligations.ClkUpdateRewritesTheTableEntryByEntry : Prop :=
  ∀ (bpm template amount : BitVec 8) (s : State), bpm ≠ 0 → template.toNat < config.nGroove →
    let base := baseNumber config bpm.toNat
    let entry (i : Fin 16) : BitVec 16 := BitVec.ofInt 16 (durationNumber config template amount base (BitVec.ofNat 4 i))
    let table (j : Nat) : Vector (BitVec 16) 16 := Vector.ofFn (fun i => if i.val ≤ j then entry i else s.clk.dur[i])
    let clk (j : Nat) : Clk := { s.clk with
      bpm := bpm, template := template, amount := amount, base := BitVec.ofNat 16 base, dur := table j }
    ∃ t, exec (.clkUpdate bpm template amount) s = .next t ∧
      (∀ j, j < 15 → continued j t = { s with clk := clk j, ctl := .clkUpdate (BitVec.ofNat 4 (j + 1)) }) ∧
      continued 15 t = State.reply { s with clk := clk 15, ctl := .idle } .C 0

/-- CLK.TICK: the counter advances; on reaching the current step's duration it restarts and one event is added, modulo 256
(42_clk.md R175). -/
def Obligations.ClkTickCountsToTheStepDuration : Prop :=
  ∀ s : State,
    let c := (s.clk.cnt.toNat + 1) % 2 ^ 16
    (s.clk.dur[s.clk.gidx.toNat].toNat ≤ c → exec .clkTick s = .next (State.reply
      { s with clk := { s.clk with cnt := 0, events := BitVec.ofNat 8 (s.clk.events.toNat + 1) } } .T 0)) ∧
    (c < s.clk.dur[s.clk.gidx.toNat].toNat → exec .clkTick s = .next (State.reply
      { s with clk := { s.clk with cnt := BitVec.ofNat 16 c } } .T 0))

/-- 42_clk.md R175: with a constant duration `d >= 1`, exactly every d-th tick produces an event, counted modulo 256. -/
def Obligations.EveryDthTickIsAnEvent : Prop :=
  ∀ (c : Clk) (n : Nat), 1 ≤ c.dur[c.gidx.toNat].toNat → c.cnt = 0 →
    Clk.tick^[n] c = { c with
      cnt := BitVec.ofNat 16 (n % c.dur[c.gidx.toNat].toNat)
      events := c.events + BitVec.ofNat 8 (n / c.dur[c.gidx.toNat].toNat) }

/-- CLK.COUNT: step A exchanges the events with 0; step B, the port's next step, advances the 6-tick counter, the groove index and the
prescaler by that many internal ticks and returns the clock events (42_clk.md R177). -/
def Obligations.ClkCountDrainsTheEvents : Prop :=
  (∀ s : State, exec .clkCount s = .next { s with clk := { s.clk with events := 0 }, ctl := .clkCount s.clk.events }) ∧
  (∀ (s : State) (n : BitVec 8), s.ctl = .clkCount n → s.clk.tick6.toNat ≤ 5 → s.clk.pre.toNat < s.clk.res.toNat → s.clk.res.toNat ≤ 6 →
    s.continueC config = State.reply
      { s with
        clk := { s.clk with
          tick6 := BitVec.ofNat 3 ((s.clk.tick6.toNat + n.toNat) % 6)
          gidx := BitVec.ofNat 4 (s.clk.gidx.toNat + (s.clk.tick6.toNat + n.toNat) / 6)
          pre := BitVec.ofNat 3 ((s.clk.pre.toNat + n.toNat) % s.clk.res.toNat) }
        ctl := .idle } .C (BitVec.ofNat 48 ((s.clk.pre.toNat + n.toNat) / s.clk.res.toNat)))

/-- 42_clk.md R177: a CLK.TICK between step A and step B uses the old groove index, changes neither the result nor the step counters,
and its event is kept for the next CLK.COUNT. -/
def Obligations.TickInsideCountIsKept : Prop :=
  ∀ s t u : State, exec .clkCount s = .next t → exec .clkTick t = .next u →
    (u.continueC config).portC = (t.continueC config).portC ∧
    (u.continueC config).clk = { (t.continueC config).clk with cnt := u.clk.cnt, events := u.clk.events } ∧
    u.clk.events.toNat = (if s.clk.dur[s.clk.gidx.toNat] ≤ s.clk.cnt + 1 then 1 else 0)

/-- 42_clk.md R179: after CLK.UPDATE 120, t, 0 every step lasts the base duration, which differs from `CLK_TEMPO_FACTOR / 480` by at most
one half where it neither saturates nor vanishes. -/
def Obligations.TempoIsTheRoundedBaseDuration : Prop :=
  ∀ (cfg : Config) (template : BitVec 8) (i : BitVec 4), 240 ≤ cfg.tempoFactor → cfg.tempoFactor ≤ 480 * 65535 →
    let base := (baseDuration cfg 120).toNat
    (stepDuration cfg template 0 (baseDuration cfg 120) i).toNat = base ∧
    480 * base ≤ cfg.tempoFactor + 240 ∧ cfg.tempoFactor ≤ 480 * base + 240

/-! ## GLD -/

/-- GLD.INIT, GLD.SETINC, GLD.START and GLD.RENDER, with all they change (43_glide.md R191, R192, R193, R195). -/
def Obligations.GldCommands : Prop :=
  ∀ (s : State) (x : BitVec 16) (g : Bool),
    let c := s.gld.counter + s.gld.inc
    let v := mix16 s.gld.source s.gld.target c
    exec .gldInit s = .next (State.reply { s with gld := { s.gld with source := 0, target := 0, counter := 0, pitch := 0 } } .C 0) ∧
    exec (.gldSetinc x) s = .next (State.reply { s with gld := { s.gld with inc := x } } .C 0) ∧
    (g = false ∨ s.gld.source = 0 ∨ s.gld.inc = 0 → exec (.gldStart x g) s = .next (State.reply
      { s with gld := { s.gld with source := x, target := x, counter := 0 } } .C 0)) ∧
    (g = true → s.gld.source ≠ 0 → s.gld.inc ≠ 0 → exec (.gldStart x g) s = .next (State.reply
      { s with gld := { s.gld with source := mix16 s.gld.source s.gld.target s.gld.counter, target := x, counter := 0 } } .C 0)) ∧
    (s.gld.counter.toNat + s.gld.inc.toNat < 2 ^ 16 → exec .gldRender s = .next (State.reply
      { s with gld := { s.gld with counter := c, pitch := v } } .C (v.setWidth 48))) ∧
    (2 ^ 16 ≤ s.gld.counter.toNat + s.gld.inc.toNat → exec .gldRender s = .next (State.reply
      { s with gld := { s.gld with source := s.gld.target, counter := 0, pitch := s.gld.target } } .C (s.gld.target.setWidth 48)))

/-- 43_glide.md R196: a glide with constant increment `inc > 0` completes in render `ceil(65536 / inc)`; the calls before it give
`Mix16(SOURCE, TARGET, k * inc)`, that call gives the target exactly; with the rule's counts and its two runs of four renders.
The spec marks the rule as derived from R190 and R195. -/
def Obligations.GlideCompletionCount : Prop :=
  (∀ g : Gld, g.inc ≠ 0 → g.counter = 0 →
    let n := ceilDiv 65536 g.inc.toNat
    (∀ k, 1 ≤ k → k < n → Gld.render^[k] g = { g with
      counter := BitVec.ofNat 16 (k * g.inc.toNat)
      pitch := mix16 g.source g.target (BitVec.ofNat 16 (k * g.inc.toNat)) }) ∧
    Gld.render^[n] g = { g with source := g.target, counter := 0, pitch := g.target }) ∧
  [0x4000, 0x6000, 1, 65535, 0x8000].map (ceilDiv 65536) = [4, 3, 65536, 2, 2] ∧
  [1, 2, 3, 4].map (fun k => (Gld.render^[k] (Gld.start ⟨1000, 1000, 0, 0x6000, 1000⟩ 2000 true)).pitch) = [1375, 1750, 2000, 2000] ∧
  [1, 2, 3, 4].map (fun k => (Gld.render^[k] (Gld.start ⟨8192, 8192, 0, 0x4000, 8192⟩ 7680 true)).pitch) = [8064, 7936, 7808, 7680]

/-- 43_glide.md R197: with no prior pitch, which is the reset state and the state after GLD.INIT, for every target, wish and increment, a
start followed by any number of renders gives the target every time. The spec marks the rule as derived from R193 and R195. -/
def Obligations.FirstNoteNeverGlides : Prop :=
  (∀ (g : Gld) (target : BitVec 16) (wanted : Bool) (n : Nat), g.source = 0 →
    (Gld.render^[n + 1] (g.start target wanted)).pitch = target) ∧
  (∀ g : Gld, g.init.source = 0) ∧ State.reset.gld.source = 0

/-! ## CVD -/

/-- CVD.INIT, CVD.SETCAL, CVD.SETIN, CVD.LOCK and CVD.UNLOCK, with all they change (44_cvdac.md R201, R202, R204, R212, R213). -/
def Obligations.CvdSetUpAndLock : Prop :=
  ∀ (s : State) (low high offset : BitVec 16) (v : BitVec 32) (a b c d : BitVec 12),
    let x := s.cvd
    exec .cvdInit s = .next (State.reply
      { s with cvd := { x with wptr := 0, rptr := 0, locked := false, out := ⟨0, 0, 0, 0⟩ } } .C 0) ∧
    exec (.cvdSetcal low high offset) s = .next (State.reply
      { s with cvd := { x with scaleLow := low, scaleHigh := high, offset := offset } } .C 0) ∧
    exec (.cvdSetin 0 v) s = .next (State.reply { s with cvd := { x with input := { x.input with vco := v } } } .C 0) ∧
    exec (.cvdSetin 1 v) s = .next (State.reply { s with cvd := { x with input := { x.input with pw := v } } } .C 0) ∧
    exec (.cvdSetin 2 v) s = .next (State.reply { s with cvd := { x with input := { x.input with vcf := v } } } .C 0) ∧
    exec (.cvdSetin 3 v) s = .next (State.reply { s with cvd := { x with input := { x.input with vca := v } } } .C 0) ∧
    exec (.cvdLock a b c d) s = .next (State.reply { s with cvd := { x with override := ⟨a, b, c, d⟩, locked := true } } .C 0) ∧
    exec .cvdUnlock s = .next (State.reply { s with cvd := { x with locked := false } } .C 0)

/-- CVD.READABLE and CVD.WRITABLE return the two counts and change nothing (44_cvdac.md R209, R210); the counts always sum to 3
(R211, the source's ring invariant). -/
def Obligations.ReadableAndWritableSumToThree : Prop :=
  ∀ s : State,
    exec .cvdReadable s = .next (s.reply .C (BitVec.ofNat 48 s.cvd.readable.toNat)) ∧
    exec .cvdWritable s = .next (s.reply .C (BitVec.ofNat 48 s.cvd.writable.toNat)) ∧
    s.cvd.readable.toNat = (4 + s.cvd.wptr.toNat - s.cvd.rptr.toNat) % 4 ∧
    s.cvd.readable.toNat + s.cvd.writable.toNat = 3

/-- CVD.WRITE: the slot at WPTR gets the calibrated pitch and the three clipped channels, WPTR advances, nothing else changes; where the
ring is full it is rejected with code 5 (44_cvdac.md R206, R203). -/
def Obligations.CvdWriteStoresTheClippedSample : Prop :=
  ∀ s : State,
    let x := s.cvd
    let pitch : Int := x.input.vco.toInt
    let scale : Nat := if pitch < config.pitchRef then x.scaleLow.toNat else x.scaleHigh.toNat
    let q : DacState :=
      { vco := BitVec.ofInt 12 (clipNumber (x.offset.toInt + (pitch - config.pitchRef) * scale / 16384))
        pw := BitVec.ofInt 12 (clipNumber x.input.pw.toInt)
        vcf := BitVec.ofInt 12 (clipNumber x.input.vcf.toInt)
        vca := BitVec.ofInt 12 (clipNumber x.input.vca.toInt) }
    (x.wptr + 1 ≠ x.rptr → exec .cvdWrite s = .next (State.reply
      { s with cvd := { x with slot := x.slot.set x.wptr.toNat q, wptr := x.wptr + 1 } } .C 0)) ∧
    (x.wptr + 1 = x.rptr → exec .cvdWrite s = .next (s.reject .C .ringFull))

/-- CVD.READ: the override while locked, else the oldest waiting slot, RPTR advancing, else the output kept and UNDERRUN set; its result
is the packed output (44_cvdac.md R208, R205). -/
def Obligations.CvdReadOutputsTheOldestSample : Prop :=
  ∀ s : State,
    let x := s.cvd
    let packed (q : DacState) : ResultWord :=
      BitVec.ofNat 48 (q.vco.toNat + q.pw.toNat * 2 ^ 12 + q.vcf.toNat * 2 ^ 24 + q.vca.toNat * 2 ^ 36)
    let slot := x.slot[x.rptr.toNat]
    (x.locked = true → exec .cvdRead s = .next (State.reply { s with cvd := { x with out := x.override } } .T (packed x.override))) ∧
    (x.locked = false → x.wptr ≠ x.rptr → exec .cvdRead s = .next (State.reply
      { s with cvd := { x with out := slot, rptr := x.rptr + 1 } } .T (packed slot))) ∧
    (x.locked = false → x.wptr = x.rptr → exec .cvdRead s = .next (State.reply
      { s with sys := { s.sys with underrun := true } } .T (packed x.out)))

/-- 44_cvdac.md R214 with R203: every CV saturates and never wraps; and the calibrated pitch never falls as the pitch rises, the two
segments meeting at the clipped offset. -/
def Obligations.CvsSaturateAndThePitchIsMonotone : Prop :=
  ∀ (cfg : Config) (c : Cvd) (x y : Int),
    (4095 ≤ x → (clip12 x).toNat = 4095) ∧ (x ≤ 0 → (clip12 x).toNat = 0) ∧
    (0 ≤ x → x ≤ 4095 → ((clip12 x).toNat : Int) = x) ∧
    (x ≤ y → (c.calPitch cfg x).toNat ≤ (c.calPitch cfg y).toNat) ∧
    c.calPitch cfg cfg.pitchRef = clip12 c.offset.toInt

/-- 44_cvdac.md R211: over every step of every state the ring is a queue of at most three samples: the step leaves the waiting samples
as they are, or appends one, or takes the oldest to the output, or discards them all by CVD.INIT or SYS.RESET. -/
def Obligations.RingIsABoundedQueue : Prop :=
  ∀ s t : State, step s = .next t →
    s.cvd.waiting.length = s.cvd.readable.toNat ∧
    (t.cvd.waiting = s.cvd.waiting ∨
      (∃ q, t.cvd.waiting = s.cvd.waiting ++ [q] ∧ s.cvd.waiting.length < 3 ∧ s.activePort = .C) ∨
      (∃ q, s.cvd.waiting = q :: t.cvd.waiting ∧ t.cvd.out = q ∧ s.Performs .cvdRead) ∨
      (t.cvd.waiting = [] ∧ (s.Performs .cvdInit ∨ s.Performs .sysReset)))

/-! ## VOX -/

/-- VOX.INIT, VOX.SETCTX, VOX.SETLEGATO and VOX.RDRETRIG, with all they change (45_voice.md R220, R230, R232, R231). -/
def Obligations.VoxSetUpAndRetrigger : Prop :=
  ∀ (s : State) (o : BitVec 5) (v : BitVec 8) (f : Bool),
    exec .voxInit s = .next (State.reply { s with vox := { s.vox with retrig := false, velocity := 0, accent := false } } .C 0) ∧
    exec (.voxSetctx o v) s = .next (State.reply { s with vox := { s.vox with ctx := s.vox.ctx.set o.toNat v } } .C 0) ∧
    exec (.voxSetlegato f) s = .next (State.reply { s with vox := { s.vox with legatoMode := f } } .C 0) ∧
    exec .voxRdretrig s = .next (State.reply { s with vox := { s.vox with retrig := false } } .C (if s.vox.retrig = true then 1 else 0))

/-- VOX.GATE_ON: all three envelopes are triggered, and the retrigger flag is raised where it finds the first envelope before RELEASE
(45_voice.md R221). -/
def Obligations.GateOnTriggersAllEnvelopes : Prop :=
  ∀ s : State,
    let gated := s.env[0].seg = .attack ∨ s.env[0].seg = .decay ∨ s.env[0].seg = .sustain
    exec .voxGateOn s = .next (State.reply
      { s with
        env := s.env.map (fun x => { x with seg := .attack, phase := 0, value := 0, a := 0, b := 65535 })
        vox := { s.vox with retrig := if gated then true else s.vox.retrig } } .C 0)

/-- 45_voice.md R222: VOX.GATE_OFF starts the release of every envelope from its current value, in one step, and changes nothing else;
it is rejected with code 4 where `IDX` or `ARG` is not zero. A release restarts from the value reached; one begun in DEAD stays at 0 and
is DEAD again after `ceil(2^32 / INC[RELEASE])` renders; with the rule's example. -/
def Obligations.GateOffReleasesAllEnvelopes : Prop :=
  (∀ s : State, exec .voxGateOff s = .next (State.reply
    { s with env := s.env.map (fun x => { x with seg := .release, phase := 0, a := x.value, b := 0 }) } .C 0)) ∧
  (∀ (w : CommandWord) (s : State), opcOf w = 0x62 → idxOf w ≠ 0 ∨ w.extractLsb' 0 48 ≠ 0 →
    issue .C w s = .next (s.reject .C .nonzeroReserved)) ∧
  (∀ (cfg : Config) (e : Env), e.Legal → e.seg = .dead → e.incRelease ≠ 0 →
    let n := ceilDiv (2 ^ 32) e.incRelease.toNat
    (e.trigger .release).a = 0 ∧ (e.trigger .release).b = 0 ∧
    (∀ k, k < n → ((Env.render cfg)^[k] (e.trigger .release)).seg = .release ∧
      ((Env.render cfg)^[k] (e.trigger .release)).value = 0) ∧
    ((Env.render cfg)^[n] (e.trigger .release)).seg = .dead ∧ ((Env.render cfg)^[n] (e.trigger .release)).value = 0) ∧
  (∀ (cfg : Config) (e : Env), e.incAttack = 0x40000000 →
    let x := (Env.render cfg)^[4] (e.trigger .attack)
    x.value = 65535 ∧ x.seg = .decay ∧
    ((x.trigger .release).seg, (x.trigger .release).a, (x.trigger .release).b) = (.release, 65535, 0) ∧
    (((e.trigger .attack).trigger .release).seg, ((e.trigger .attack).trigger .release).a, ((e.trigger .attack).trigger .release).b) =
      (.release, 0, 0))

/-- VOX.NOTE_ON: the glide is started toward `note * 128`, wanted in legato mode or on a legato note; the accent is merged into the
velocity, capped at 127; the envelopes are gated on unless the note is legato; `slide` has no effect (45_voice.md R224). -/
def Obligations.NoteOnStartsGlideAndEnvelopes : Prop :=
  ∀ (s : State) (note velocity : BitVec 7) (slide accent legato : Bool),
    let pitch : BitVec 16 := BitVec.ofNat 16 (note.toNat * 128)
    let vel : BitVec 7 := if accent = true then BitVec.ofNat 7 (min 127 (velocity.toNat + config.accentBoost)) else velocity
    let glides := (s.vox.legatoMode = true ∨ legato = true) ∧ s.gld.source ≠ 0 ∧ s.gld.inc ≠ 0
    let gated := s.env[0].seg = .attack ∨ s.env[0].seg = .decay ∨ s.env[0].seg = .sustain
    exec (.voxNoteOn note velocity slide accent legato) s = .next (State.reply
      { s with
        gld := { s.gld with
          source := if glides then mix16 s.gld.source s.gld.target s.gld.counter else pitch
          target := pitch
          counter := 0 }
        vox := { s.vox with
          velocity := vel
          accent := accent
          retrig := if legato = false ∧ gated then true else s.vox.retrig }
        env := if legato = true then s.env
          else s.env.map (fun x => { x with seg := .attack, phase := 0, value := 0, a := 0, b := 65535 }) } .C 0)

/-- VOX.SAMPLE: glide, envelopes by instance, LFOs by instance each advance once, in this order of draws; the modulation sum, saturated
to s32, is stored in CVD.IN; its calibrated and clipped image fills the slot at WPTR and is the result. A full ring rejects it with
code 5 before anything is rendered (45_voice.md R228). -/
def Obligations.SampleRendersEverySourceOnce : Prop :=
  ∀ s : State,
    let g := s.gld.render
    let e0 := s.env[0].render config
    let e1 := s.env[1].render config
    let e2 := s.env[2].render config
    let l0 := s.lfo[0].render s.rng
    let l1 := s.lfo[1].render l0.2
    let x := config.voiceMix
      { pitch := g.pitch, env := #v[e0.value, e1.value, e2.value], lfo := #v[l0.1.value, l1.1.value]
        velocity := s.vox.velocity, accent := s.vox.accent, ctx := s.vox.ctx }
    let sat (n : Int) : BitVec 32 := BitVec.ofInt 32 (min (max n (-2147483648)) 2147483647)
    let c : Cvd := { s.cvd with input := ⟨sat x.vco, sat x.pw, sat x.vcf, sat x.vca⟩ }
    let q : DacState := ⟨c.calPitch config c.input.vco.toInt, clip12 c.input.pw.toInt, clip12 c.input.vcf.toInt, clip12 c.input.vca.toInt⟩
    (s.cvd.wptr + 1 ≠ s.cvd.rptr → exec .voxSample s = .next (State.reply
      { s with
        gld := g
        env := #v[e0, e1, e2]
        lfo := #v[l0.1, l1.1]
        rng := l1.2
        cvd := { c with slot := c.slot.set c.wptr.toNat q, wptr := c.wptr + 1 } } .C (pack q))) ∧
    (s.cvd.wptr + 1 = s.cvd.rptr → exec .voxSample s = .next (s.reject .C .ringFull))

/-- 45_voice.md R229: with no CVD.READ in between, VOX.REFRESH performs exactly `Writable` samples, each as VOX.SAMPLE would, leaves the
ring full, and returns their number. -/
def Obligations.RefreshFillsTheRing : Prop :=
  ∀ s : State,
    let n := s.cvd.writable.toNat
    let full := (State.sample config)^[n] s
    ∃ t, exec .voxRefresh s = .next t ∧
      continued n t = State.reply { full with ctl := .idle } .C (BitVec.ofNat 48 n) ∧
      full.cvd.writable = 0

/-- A CVD.READ between two turns of a VOX.REFRESH frees a slot, which the next turn fills (45_voice.md R229): with the voice not locked
and a sample waiting, the turn after a read writes one more sample and the command goes on. -/
def Obligations.ReadInsideRefreshFreesASlot : Prop :=
  ∀ (s t : State) (n : Nat), s.ctl = .voxRefresh n → s.cvd.locked = false → s.cvd.wptr ≠ s.cvd.rptr → exec .cvdRead s = .next t →
    t.continueC config = { t.sample config with ctl := .voxRefresh (n + 1) } ∧
    (t.continueC config).cvd.readable = s.cvd.readable

/-! ## The whole machine -/

/-- The invariants of 10_state.md (R25, R31, R35, R41, R42, R44) with those of the envelope segments (40_env.md R133, R137, R138) are
kept by every step, of every state that meets them. -/
def Obligations.StepKeepsTheInvariants : Prop :=
  ∀ s t : State, s.Legal config → step s = .next t → t.Legal config

/-- The invariants hold of every state that power-on may leave (70_reset_and_hazards.md R302) and of the reset state of the model, which
is one of them; the values it names for the unspecified registers, and the command indices starting at 0 in all of them, are the model's
choice (notes/assumptions/2.md, 17.md). -/
def Obligations.PowerOnStatesMeetTheInvariants : Prop :=
  (∀ s : State, s.PowerOn config → s.Legal config) ∧ State.reset.PowerOn config ∧ State.reset.Legal config
end

