-- ==== Sys2Proof/Laws/Encoding.lean ====
section
/-! SUPPORT. The fields of an encoded word, read back: what the decoder's cutting functions give on `wordOf`, and how a mask of
30_encoding.md R105 meets a word field by field. -/

namespace Sys2Proof

/-- Every bit of a word by its field (R101). -/
theorem getLsbD_wordOf (o : BitVec 8) (i : BitVec 4) (a : BitVec 48) (k : Nat) :
    (wordOf o i a).getLsbD k =
      if k < 48 then a.getLsbD k else if k < 52 then false else if k < 56 then i.getLsbD (k - 52) else o.getLsbD (k - 56) := by
  have h : (wordOf o i a).getLsbD k = (o ++ i ++ 0#4 ++ a : BitVec (8 + 4 + 4 + 48)).getLsbD k := rfl
  rw [h, BitVec.getLsbD_append, BitVec.getLsbD_append, BitVec.getLsbD_append]
  by_cases h1 : k < 48
  · rw [if_pos h1, if_pos h1]
  by_cases h2 : k < 52
  · rw [if_neg h1, if_neg h1, if_pos h2, if_pos (by omega), BitVec.getLsbD_zero]
  by_cases h3 : k < 56
  · rw [if_neg h1, if_neg h1, if_neg h2, if_pos h3, if_neg (by omega), if_pos (by omega), show k - 48 - 4 = k - 52 by omega]
  · rw [if_neg h1, if_neg h1, if_neg h2, if_neg h3, if_neg (by omega), if_neg (by omega), show k - 48 - 4 - 4 = k - 56 by omega]

@[simp] theorem opcOf_wordOf (o : BitVec 8) (i : BitVec 4) (a : BitVec 48) : opcOf (wordOf o i a) = o := by
  ext k hk
  rw [opcOf, BitVec.getElem_extractLsb', getLsbD_wordOf, if_neg (by omega), if_neg (by omega), if_neg (by omega),
    show 56 + k - 56 = k by omega, BitVec.getLsbD_eq_getElem hk]

@[simp] theorem idxOf_wordOf (o : BitVec 8) (i : BitVec 4) (a : BitVec 48) : idxOf (wordOf o i a) = i := by
  ext k hk
  rw [idxOf, BitVec.getElem_extractLsb', getLsbD_wordOf, if_neg (by omega), if_neg (by omega), if_pos (by omega),
    show 52 + k - 52 = k by omega, BitVec.getLsbD_eq_getElem hk]

theorem argOf_wordOf (o : BitVec 8) (i : BitVec 4) (a : BitVec 48) (lo len : Nat) (h : lo + len ≤ 48) :
    argOf (wordOf o i a) lo len = a.extractLsb' lo len := by
  ext k hk
  rw [argOf, BitVec.getElem_extractLsb', BitVec.getElem_extractLsb', getLsbD_wordOf, if_pos (by omega)]

theorem argFlag_wordOf (o : BitVec 8) (i : BitVec 4) (a : BitVec 48) (k : Nat) (h : k < 48) :
    argFlag (wordOf o i a) k = a.getLsbD k := by
  rw [argFlag, getLsbD_wordOf, if_pos h]

/-- A word with `RSV` zero is made of its fields. -/
theorem wordOf_fields (w : CommandWord) (h : w.extractLsb' 48 4 = 0) : wordOf (opcOf w) (idxOf w) (argOf w 0 48) = w := by
  ext k hk
  rw [← BitVec.getLsbD_eq_getElem, ← BitVec.getLsbD_eq_getElem, getLsbD_wordOf]
  by_cases h1 : k < 48
  · rw [if_pos h1, argOf, BitVec.getLsbD_extractLsb', decide_eq_true h1, Bool.true_and, Nat.zero_add]
  by_cases h2 : k < 52
  · have h3 := congrArg (fun x => BitVec.getLsbD x (k - 48)) h
    simp only [BitVec.getLsbD_extractLsb', decide_eq_true (show k - 48 < 4 by omega), Bool.true_and, BitVec.ofNat_eq_ofNat,
      BitVec.getLsbD_zero, show 48 + (k - 48) = k by omega] at h3
    rw [if_neg h1, if_pos h2, h3]
  by_cases h3 : k < 56
  · rw [if_neg h1, if_neg h2, if_pos h3, idxOf, BitVec.getLsbD_extractLsb', decide_eq_true (by omega), Bool.true_and,
      show 52 + (k - 52) = k by omega]
  · rw [if_neg h1, if_neg h2, if_neg h3, opcOf, BitVec.getLsbD_extractLsb', decide_eq_true (by omega), Bool.true_and,
      show 56 + (k - 56) = k by omega]

/-- The row of a word depends on its opcode only. -/
theorem rowOf_wordOf (o : BitVec 8) (i : BitVec 4) (a : BitVec 48) :
    rowOf (wordOf o i a) = opcodeMap.find? (fun r => r.opc == o) := by
  rw [rowOf, opcOf_wordOf]

/-- A word passes its row's mask where its `IDX` and its `ARG` do; the pieces of the mask are written out. -/
theorem wordOf_and {o : BitVec 8} {i i' j : BitVec 4} {a a' b : BitVec 48} {mask pattern : CommandWord}
    (hm : mask = 0xFF#8 ++ j ++ 0xF#4 ++ b) (hp : pattern = wordOf o i' a') (hi : i &&& j = i') (ha : a &&& b = a') :
    wordOf o i a &&& mask = pattern := by
  subst hm hp hi ha
  have h : wordOf o i a &&& (0xFF#8 ++ j ++ 0xF#4 ++ b) =
      ((o ++ i ++ 0#4 ++ a : BitVec (8 + 4 + 4 + 48)) &&& (BitVec.allOnes 8 ++ j ++ 0xF#4 ++ b)) := rfl
  rw [h, BitVec.and_append, BitVec.and_append, BitVec.and_append, BitVec.zero_and, BitVec.and_allOnes]
  rfl

/-- A word sent as bytes and put together again is the same word. -/
theorem wordOfBytes_bytesOfWord (w : CommandWord) : wordOfBytes (bytesOfWord w) = w := by
  apply BitVec.eq_of_toNat_eq
  have h : (wordOfBytes (bytesOfWord w)).toNat =
      (w.extractLsb' 56 8 ++ w.extractLsb' 48 8 ++ w.extractLsb' 40 8 ++ w.extractLsb' 32 8 ++ w.extractLsb' 24 8 ++
        w.extractLsb' 16 8 ++ w.extractLsb' 8 8 ++ w.extractLsb' 0 8 : BitVec (8 + 8 + 8 + 8 + 8 + 8 + 8 + 8)).toNat := by
    simp [wordOfBytes, bytesOfWord]
  rw [h]
  repeat rw [BitVec.extractLsb'_append_extractLsb'_eq_extractLsb' (by decide)]
  simp

/-- A result sent as bytes and put together again is the same result. -/
theorem resultOfBytes_bytesOfResult (r : ResultWord) : resultOfBytes (bytesOfResult r) = r := by
  apply BitVec.eq_of_toNat_eq
  have h : (resultOfBytes (bytesOfResult r)).toNat =
      (r.extractLsb' 40 8 ++ r.extractLsb' 32 8 ++ r.extractLsb' 24 8 ++ r.extractLsb' 16 8 ++ r.extractLsb' 8 8 ++
        r.extractLsb' 0 8 : BitVec (8 + 8 + 8 + 8 + 8 + 8)).toNat := by
    simp [resultOfBytes, bytesOfResult]
  rw [h]
  repeat rw [BitVec.extractLsb'_append_extractLsb'_eq_extractLsb' (by decide)]
  simp

end Sys2Proof
end

