-- ==== Sys2Proof/Laws/Ops.lean ====
section
/-! SUPPORT. What each shared operation can do, said once: the lemmas that proofs cite instead of unfolding an operation. -/

set_option Elab.async false

namespace Sys2Proof.Machine

/-! ## Arithmetic -/

theorem clamp_mem {lo hi : Int} (h : lo ≤ hi) (x : Int) : lo ≤ clamp x lo hi ∧ clamp x lo hi ≤ hi := by
  unfold clamp; omega

/-- A clipped value as an integer. -/
theorem toInt_clip12 (x : Int) : ((clip12 x).toNat : Int) = clamp x 0 4095 := by
  have h := clamp_mem (show (0 : Int) ≤ 4095 by decide) x
  unfold clip12
  rw [BitVec.toNat_ofInt]
  omega

/-- An interpolated value as a number: the quotient never exceeds 16 bits. -/
theorem toNat_mix16 (a b c : BitVec 16) :
    (mix16 a b c).toNat = (a.toNat * (65536 - c.toNat) + b.toNat * c.toNat) / 65536 := by
  have ha := a.isLt; have hb := b.isLt; have hc := c.isLt
  have h : a.toNat * (65536 - c.toNat) + b.toNat * c.toNat ≤ 65535 * 65536 := by
    calc a.toNat * (65536 - c.toNat) + b.toNat * c.toNat
        ≤ 65535 * (65536 - c.toNat) + 65535 * c.toNat :=
          Nat.add_le_add (Nat.mul_le_mul_right _ (by omega)) (Nat.mul_le_mul_right _ (by omega))
      _ = 65535 * 65536 := by omega
  rw [mix16, BitVec.toNat_ofNat, Nat.mod_eq_of_lt]
  omega

/-- The overflow test tells exactly whether an addition wrapped. -/
theorem overflowed_add {n : Nat} (x inc : BitVec n) : overflowed (x + inc) inc = decide (2 ^ n ≤ x.toNat + inc.toNat) := by
  have hx := x.isLt; have hi := inc.isLt
  simp only [overflowed, BitVec.lt_def, BitVec.toNat_add, decide_eq_decide]
  by_cases h : 2 ^ n ≤ x.toNat + inc.toNat
  · rw [Nat.mod_eq_sub_mod h, Nat.mod_eq_of_lt (by omega)]; omega
  · rw [Nat.mod_eq_of_lt (by omega)]; omega

/-! ## Channels -/

@[simp] theorem quadGet_quadSet {α : Type} (q : Quad α) (c d : Fin 4) (x : α) :
    quadGet (quadSet q c x) d = if d = c then x else quadGet q d := by
  rcases c with ⟨_ | _ | _ | _ | _, hc⟩ <;> rcases d with ⟨_ | _ | _ | _ | _, hd⟩ <;> first | rfl | omega

/-! ## All instances of a unit -/

theorem mapAll_eq_map {α β : Type} {n : Nat} (f : α → β) (v : Vector α n) : mapAll f v = v.map f := by
  ext i hi
  simp [mapAll]

@[simp] theorem getElem_mapAll {α β : Type} {n : Nat} (f : α → β) (v : Vector α n) (i : Nat) (h : i < n) :
    (mapAll f v)[i] = f v[i] := by
  simp [mapAll]

/-! ## Envelope registers -/

@[simp] theorem Env.inc_sustain (e : Env) : e.inc .sustain = 0 := rfl
@[simp] theorem Env.inc_dead (e : Env) : e.inc .dead = 0 := rfl
@[simp] theorem Env.target_attack (e : Env) : e.target .attack = 65535 := rfl
@[simp] theorem Env.target_decay (e : Env) : e.target .decay = e.sustainLevel := rfl
@[simp] theorem Env.target_sustain (e : Env) : e.target .sustain = e.sustainLevel := rfl
@[simp] theorem Env.target_release (e : Env) : e.target .release = 0 := rfl
@[simp] theorem Env.target_dead (e : Env) : e.target .dead = 0 := rfl

@[simp] theorem Env.trigger_seg (e : Env) (g : Segment) : (e.trigger g).seg = g := rfl
@[simp] theorem Env.trigger_phase (e : Env) (g : Segment) : (e.trigger g).phase = 0 := rfl
@[simp] theorem Env.trigger_a (e : Env) (g : Segment) : (e.trigger g).a = (e.trigger g).value := rfl
@[simp] theorem Env.trigger_b (e : Env) (g : Segment) : (e.trigger g).b = e.target g := rfl
@[simp] theorem Env.trigger_inc (e : Env) (g h : Segment) : (e.trigger g).inc h = e.inc h := by cases h <;> rfl
@[simp] theorem Env.trigger_target (e : Env) (g h : Segment) : (e.trigger g).target h = e.target h := by cases h <;> rfl
@[simp] theorem Env.trigger_sustainLevel (e : Env) (g : Segment) : (e.trigger g).sustainLevel = e.sustainLevel := rfl

/-- All a render of an envelope can do: move on inside its segment, or complete it. -/
theorem Env.render_cases (cfg : Config) (e : Env) :
    (e.phase.toNat + (e.inc e.seg).toNat < 2 ^ 32 ∧ e.render cfg =
      { e with
        phase := e.phase + e.inc e.seg
        value := mix16 e.a e.b (cfg.envCurve ((e.phase + e.inc e.seg).extractLsb' 24 8)) }) ∨
    (2 ^ 32 ≤ e.phase.toNat + (e.inc e.seg).toNat ∧ e.render cfg = e.complete) := by
  simp only [Env.render, overflowed_add, decide_eq_true_eq]
  split
  · exact .inr ⟨‹_›, rfl⟩
  · exact .inl ⟨by omega, rfl⟩

/-! ## DACStates as words and bytes -/

/-- The packed image as the number of 44_cvdac.md R205. -/
theorem pack_toNat (q : DacState) :
    (pack q).toNat = q.vco.toNat + q.pw.toNat * 2 ^ 12 + q.vcf.toNat * 2 ^ 24 + q.vca.toNat * 2 ^ 36 := by
  have h1 := q.vco.isLt; have h2 := q.pw.isLt; have h3 := q.vcf.isLt
  have h (n m : Nat) (hm : m < 2 ^ 12) : n <<< 12 ||| m = n * 2 ^ 12 + m := by
    rw [← Nat.shiftLeft_add_eq_or_of_lt hm, Nat.shiftLeft_eq]
  simp only [pack, BitVec.toNat_append]
  rw [h _ _ h3, h _ _ h2, h _ _ h1]
  omega

@[simp] theorem unpack_pack (q : DacState) : unpack (pack q) = q := by
  have h1 := q.vco.isLt; have h2 := q.pw.isLt; have h3 := q.vcf.isLt; have h4 := q.vca.isLt
  have h (k : Nat) (x : BitVec 12) (hx : (pack q).toNat / 2 ^ k % 2 ^ 12 = x.toNat) : (pack q).extractLsb' k 12 = x := by
    apply BitVec.eq_of_toNat_eq
    rw [BitVec.extractLsb'_toNat, Nat.shiftRight_eq_div_pow, hx]
  unfold unpack
  rw [h 0 q.vco, h 12 q.pw, h 24 q.vcf, h 36 q.vca] <;> rw [pack_toNat] <;> omega

/-- A DACState sent as bytes and put together again is the same DACState. -/
theorem dacStateOfBytes_bytesOfDacState (q : DacState) : dacStateOfBytes (bytesOfDacState q) = q := by
  rw [dacStateOfBytes, bytesOfDacState, resultOfBytes_bytesOfResult, unpack_pack]

/-! ## The random input -/

theorem Rng.draw_nil (n : Nat) : Rng.draw ⟨[], n⟩ = (Config.freeDraw n, ⟨[], n + 1⟩) := rfl
theorem Rng.draw_cons (x : BitVec 16) (xs : List (BitVec 16)) (n : Nat) : Rng.draw ⟨x :: xs, n⟩ = (x, ⟨xs, n⟩) := rfl

/-! ## LFOs -/

@[simp] theorem Lfo.cache_phase (l : Lfo) (x : BitVec 16) : (l.cache x).phase = l.phase := rfl
@[simp] theorem Lfo.cache_inc (l : Lfo) (x : BitVec 16) : (l.cache x).inc = l.inc := rfl
@[simp] theorem Lfo.cache_shape (l : Lfo) (x : BitVec 16) : (l.cache x).shape = l.shape := rfl
@[simp] theorem Lfo.cache_cur (l : Lfo) (x : BitVec 16) : (l.cache x).cur = x := rfl

/-- All a render of an LFO can do to the random input: take one draw, or none. -/
theorem Lfo.render_rng (l : Lfo) (r : Rng) : (l.render r).2 = r.draw.2 ∨ (l.render r).2 = r := by
  simp only [Lfo.render]; split <;> simp

/-! ## Clock -/

/-- All a tick can do: count, or complete an internal tick. -/
theorem Clk.tick_cases (c : Clk) :
    (c.dur[c.gidx.toNat] ≤ c.cnt + 1 ∧ c.tick = { c with events := c.events + 1, cnt := 0 }) ∨
    (c.cnt + 1 < c.dur[c.gidx.toNat] ∧ c.tick = { c with cnt := c.cnt + 1 }) := by
  unfold Clk.tick
  by_cases h : c.dur[c.gidx.toNat] ≤ c.cnt + 1
  · exact .inl ⟨h, if_pos h⟩
  · exact .inr ⟨BitVec.not_le.mp h, if_neg h⟩

@[simp] theorem Clk.drain_zero (c : Clk) : c.drain 0 = (c, 0) := rfl
theorem Clk.drain_succ (c : Clk) (n : Nat) :
    c.drain (n + 1) = ((c.advance.1.drain n).1, (if c.advance.2 then 1 else 0) + (c.advance.1.drain n).2) := rfl

/-- A drain leaves the parameters, the table and the port-T counters alone. -/
theorem Clk.drain_frame (c : Clk) (n : Nat) :
    (c.drain n).1 = { c with tick6 := (c.drain n).1.tick6, gidx := (c.drain n).1.gidx, pre := (c.drain n).1.pre } := by
  induction n generalizing c with
  | zero => rfl
  | succ n ih => rw [Clk.drain_succ]; exact ih c.advance.1

/-! ## Glide -/

@[simp] theorem Gld.start_target (g : Gld) (t : BitVec 16) (w : Bool) : (g.start t w).target = t := rfl
@[simp] theorem Gld.start_counter (g : Gld) (t : BitVec 16) (w : Bool) : (g.start t w).counter = 0 := rfl
@[simp] theorem Gld.start_inc (g : Gld) (t : BitVec 16) (w : Bool) : (g.start t w).inc = g.inc := rfl

/-- All the ramp can do: advance, or complete the glide. -/
theorem Gld.ramp_cases (g : Gld) :
    (g.counter.toNat + g.inc.toNat < 2 ^ 16 ∧ g.ramp = { g with counter := g.counter + g.inc }) ∨
    (2 ^ 16 ≤ g.counter.toNat + g.inc.toNat ∧ g.ramp = { g with source := g.target, counter := 0 }) := by
  simp only [Gld.ramp, overflowed_add, decide_eq_true_eq]
  split
  · exact .inr ⟨‹_›, rfl⟩
  · exact .inl ⟨by omega, rfl⟩

/-! ## Ring -/

/-- All a read can do to the ring. -/
theorem Cvd.read_cases (c : Cvd) :
    (c.locked = true ∧ c.read = { c with out := c.override }) ∨
    (c.locked = false ∧ c.readable = 0 ∧ c.read = c) ∨
    (c.locked = false ∧ c.readable ≠ 0 ∧ c.read = { c with out := c.slot[c.rptr.toNat], rptr := c.rptr + 1 }) := by
  unfold Cvd.read
  by_cases hl : c.locked = true
  · exact .inl ⟨hl, if_pos hl⟩
  · have hl' : c.locked = false := by simpa using hl
    by_cases h : c.readable = 0
    · exact .inr (.inl ⟨hl', h, by rw [if_neg hl, if_pos h]⟩)
    · exact .inr (.inr ⟨hl', h, by rw [if_neg hl, if_neg h]⟩)

@[simp] theorem Cvd.write_wptr (cfg : Config) (c : Cvd) : (c.write cfg).wptr = c.wptr + 1 := rfl
@[simp] theorem Cvd.write_rptr (cfg : Config) (c : Cvd) : (c.write cfg).rptr = c.rptr := rfl
@[simp] theorem Cvd.write_out (cfg : Config) (c : Cvd) : (c.write cfg).out = c.out := rfl
@[simp] theorem Cvd.write_locked (cfg : Config) (c : Cvd) : (c.write cfg).locked = c.locked := rfl
@[simp] theorem Cvd.write_slot (cfg : Config) (c : Cvd) : (c.write cfg).slot = c.slot.set c.wptr.toNat (c.sampleOf cfg) := rfl

/-! ## Answering a port -/

@[simp] theorem State.withOperand_some {α : Type} (s : State) (a : α) (f : α → State) : s.withOperand (some a) f = f a := rfl
@[simp] theorem State.withOperand_none {α : Type} (s : State) (f : α → State) :
    s.withOperand none f = s.reject .C .reservedOperand := rfl

/-- All a command with a checked operand can do. -/
theorem State.withOperand_cases {α : Type} (s : State) (x : Option α) (f : α → State) :
    (∃ a, x = some a ∧ s.withOperand x f = f a) ∨ (x = none ∧ s.withOperand x f = s.reject .C .reservedOperand) := by
  cases x with
  | none => exact .inr ⟨rfl, rfl⟩
  | some a => exact .inl ⟨a, rfl, rfl⟩

/-- All that recording a rejection can do. -/
theorem Sys.recordReject_cases (y : Sys) (k : Reject) :
    (y.err = true ∧ y.recordReject k = y) ∨ (y.err = false ∧ y.recordReject k = { y with err := true, errCode := k.code }) := by
  unfold Sys.recordReject
  cases h : y.err
  · exact .inr ⟨rfl, by simp⟩
  · exact .inl ⟨rfl, by simp⟩

theorem envIndex_of_lt (e : BitVec 4) (h : e.toNat < nEnv) : envIndex e = some ⟨e.toNat, h⟩ := dif_pos h
theorem lfoIndex_of_lt (l : BitVec 4) (h : l.toNat < nLfo) : lfoIndex l = some ⟨l.toNat, h⟩ := dif_pos h
theorem channelIndex_of_lt (c : BitVec 4) (h : c.toNat < 4) : channelIndex c = some ⟨c.toNat, h⟩ := dif_pos h

end Sys2Proof.Machine
end

