-- ==== Sys2Proof/Laws/PerInstr.lean ====
section
/-! SUPPORT. One lemma for each constructor of `Instr`: its encoded word has a row of the opcode map, on its port, passes that row's
mask, and is cut back into the same operands. -/

set_option Elab.async false

namespace Sys2Proof.Laws.EncodedWord

/-- The word of `i` belongs to one row, and that row reads `i` back. -/
def Statement (i : Instr) : Prop :=
  ∃ r, rowOf (encode i) = some r ∧ r.port = i.port ∧ encode i &&& r.mask = r.pattern ∧ r.cut (encode i) = i

/-- A field above others, cut out of an appended `ARG`. -/
theorem cut_high {v n lo len : Nat} (x : BitVec v) (y : BitVec n) (h : n ≤ lo) :
    (x ++ y).extractLsb' lo len = x.extractLsb' (lo - n) len := BitVec.extractLsb'_append_eq_of_le h

/-- A field below others, cut out of an appended `ARG`. -/
theorem cut_low {v n lo len : Nat} (x : BitVec v) (y : BitVec n) (h : lo + len ≤ n) :
    (x ++ y).extractLsb' lo len = y.extractLsb' lo len := BitVec.extractLsb'_append_eq_of_add_le h

/-- A flag above others in an appended `ARG`. -/
theorem bit_high {v n k : Nat} (x : BitVec v) (y : BitVec n) (h : n ≤ k) : (x ++ y).getLsbD k = x.getLsbD (k - n) := by
  rw [BitVec.getLsbD_append, if_neg (by omega)]

/-- A flag below others in an appended `ARG`. -/
theorem bit_low {v n k : Nat} (x : BitVec v) (y : BitVec n) (h : k < n) : (x ++ y).getLsbD k = y.getLsbD k := by
  rw [BitVec.getLsbD_append, if_pos h]

/-- The one bit of a flag's field. -/
theorem bit_flag (b : Bool) : (BitVec.ofBool b).getLsbD 0 = b := by cases b <;> rfl

theorem sysNop : Statement .sysNop := ⟨_, rfl, rfl, by decide, rfl⟩

theorem sysReset : Statement .sysReset := ⟨_, rfl, rfl, by decide, rfl⟩

theorem sysRdreg (addr : BitVec 16) :
    Statement (.sysRdreg addr) := by
  refine ⟨_, by rw [encode, rowOf_wordOf]; rfl, rfl, ?_, ?_⟩
  · show wordOf 0x02 0 (0#32 ++ addr) &&& 0xFFFFFFFFFFFF0000 = 0x0200000000000000
    refine wordOf_and (j := 0xF#4) (b := BitVec.allOnes 32 ++ 0#16) (i' := 0) (a' := 0)
      rfl rfl rfl ?_
    show (0#32 ++ addr : BitVec (32 + 16)) &&&
      (BitVec.allOnes 32 ++ 0#16) = 0
    simp only [BitVec.and_append, BitVec.and_zero, BitVec.zero_and]
    rfl
  · simp only [encode, argOf_wordOf, Nat.reduceAdd, Nat.reduceLeDiff, Instr.arg]
    congr 1
    · rw [cut_low _ _ (by decide)]
      exact BitVec.extractLsb'_eq_self

theorem envInit (e : BitVec 4) :
    Statement (.envInit e) := by
  refine ⟨_, by rw [encode, rowOf_wordOf]; rfl, rfl, ?_, ?_⟩
  · show wordOf 0x10 e 0 &&& 0xFF0FFFFFFFFFFFFF = 0x1000000000000000
    exact wordOf_and (j := 0#4) (b := BitVec.allOnes 48) (i' := 0) (a' := 0) rfl rfl BitVec.and_zero rfl
  · simp only [encode, idxOf_wordOf, Instr.idx]

theorem envUpdate (e : BitVec 4) (attack decay sustain release : BitVec 8) :
    Statement (.envUpdate e attack decay sustain release) := by
  refine ⟨_, by rw [encode, rowOf_wordOf]; rfl, rfl, ?_, ?_⟩
  · show wordOf 0x11 e (0#16 ++ release ++ sustain ++ decay ++ attack) &&& 0xFF0FFFFF00000000 = 0x1100000000000000
    refine wordOf_and (j := 0#4) (b := BitVec.allOnes 16 ++ 0#8 ++ 0#8 ++ 0#8 ++ 0#8) (i' := 0) (a' := 0)
      rfl rfl BitVec.and_zero ?_
    show (0#16 ++ release ++ sustain ++ decay ++ attack : BitVec (16 + 8 + 8 + 8 + 8)) &&&
      (BitVec.allOnes 16 ++ 0#8 ++ 0#8 ++ 0#8 ++ 0#8) = 0
    simp only [BitVec.and_append, BitVec.and_zero, BitVec.zero_and]
    rfl
  · simp only [encode, idxOf_wordOf, argOf_wordOf, Nat.reduceAdd, Nat.reduceLeDiff, Instr.idx, Instr.arg]
    congr 1
    · rw [cut_low _ _ (by decide)]
      exact BitVec.extractLsb'_eq_self
    · rw [cut_high _ _ (by decide), cut_low _ _ (by decide)]
      exact BitVec.extractLsb'_eq_self
    · rw [cut_high _ _ (by decide), cut_high _ _ (by decide), cut_low _ _ (by decide)]
      exact BitVec.extractLsb'_eq_self
    · rw [cut_high _ _ (by decide), cut_high _ _ (by decide), cut_high _ _ (by decide), cut_low _ _ (by decide)]
      exact BitVec.extractLsb'_eq_self

theorem envTrigger (e : BitVec 4) (seg : BitVec 3) :
    Statement (.envTrigger e seg) := by
  refine ⟨_, by rw [encode, rowOf_wordOf]; rfl, rfl, ?_, ?_⟩
  · show wordOf 0x12 e (0#45 ++ seg) &&& 0xFF0FFFFFFFFFFFF8 = 0x1200000000000000
    refine wordOf_and (j := 0#4) (b := BitVec.allOnes 45 ++ 0#3) (i' := 0) (a' := 0)
      rfl rfl BitVec.and_zero ?_
    show (0#45 ++ seg : BitVec (45 + 3)) &&&
      (BitVec.allOnes 45 ++ 0#3) = 0
    simp only [BitVec.and_append, BitVec.and_zero, BitVec.zero_and]
    rfl
  · simp only [encode, idxOf_wordOf, argOf_wordOf, Nat.reduceAdd, Nat.reduceLeDiff, Instr.idx, Instr.arg]
    congr 1
    · rw [cut_low _ _ (by decide)]
      exact BitVec.extractLsb'_eq_self

theorem envRender (e : BitVec 4) :
    Statement (.envRender e) := by
  refine ⟨_, by rw [encode, rowOf_wordOf]; rfl, rfl, ?_, ?_⟩
  · show wordOf 0x13 e 0 &&& 0xFF0FFFFFFFFFFFFF = 0x1300000000000000
    exact wordOf_and (j := 0#4) (b := BitVec.allOnes 48) (i' := 0) (a' := 0) rfl rfl BitVec.and_zero rfl
  · simp only [encode, idxOf_wordOf, Instr.idx]

theorem envGate (e : BitVec 4) :
    Statement (.envGate e) := by
  refine ⟨_, by rw [encode, rowOf_wordOf]; rfl, rfl, ?_, ?_⟩
  · show wordOf 0x14 e 0 &&& 0xFF0FFFFFFFFFFFFF = 0x1400000000000000
    exact wordOf_and (j := 0#4) (b := BitVec.allOnes 48) (i' := 0) (a' := 0) rfl rfl BitVec.and_zero rfl
  · simp only [encode, idxOf_wordOf, Instr.idx]

theorem lfoInit (l : BitVec 4) :
    Statement (.lfoInit l) := by
  refine ⟨_, by rw [encode, rowOf_wordOf]; rfl, rfl, ?_, ?_⟩
  · show wordOf 0x20 l 0 &&& 0xFF0FFFFFFFFFFFFF = 0x2000000000000000
    exact wordOf_and (j := 0#4) (b := BitVec.allOnes 48) (i' := 0) (a' := 0) rfl rfl BitVec.and_zero rfl
  · simp only [encode, idxOf_wordOf, Instr.idx]

theorem lfoSetshape (l : BitVec 4) (shape : BitVec 3) :
    Statement (.lfoSetshape l shape) := by
  refine ⟨_, by rw [encode, rowOf_wordOf]; rfl, rfl, ?_, ?_⟩
  · show wordOf 0x21 l (0#45 ++ shape) &&& 0xFF0FFFFFFFFFFFF8 = 0x2100000000000000
    refine wordOf_and (j := 0#4) (b := BitVec.allOnes 45 ++ 0#3) (i' := 0) (a' := 0)
      rfl rfl BitVec.and_zero ?_
    show (0#45 ++ shape : BitVec (45 + 3)) &&&
      (BitVec.allOnes 45 ++ 0#3) = 0
    simp only [BitVec.and_append, BitVec.and_zero, BitVec.zero_and]
    rfl
  · simp only [encode, idxOf_wordOf, argOf_wordOf, Nat.reduceAdd, Nat.reduceLeDiff, Instr.idx, Instr.arg]
    congr 1
    · rw [cut_low _ _ (by decide)]
      exact BitVec.extractLsb'_eq_self

theorem lfoSetinc (l : BitVec 4) (inc : BitVec 32) :
    Statement (.lfoSetinc l inc) := by
  refine ⟨_, by rw [encode, rowOf_wordOf]; rfl, rfl, ?_, ?_⟩
  · show wordOf 0x22 l (0#16 ++ inc) &&& 0xFF0FFFFF00000000 = 0x2200000000000000
    refine wordOf_and (j := 0#4) (b := BitVec.allOnes 16 ++ 0#32) (i' := 0) (a' := 0)
      rfl rfl BitVec.and_zero ?_
    show (0#16 ++ inc : BitVec (16 + 32)) &&&
      (BitVec.allOnes 16 ++ 0#32) = 0
    simp only [BitVec.and_append, BitVec.and_zero, BitVec.zero_and]
    rfl
  · simp only [encode, idxOf_wordOf, argOf_wordOf, Nat.reduceAdd, Nat.reduceLeDiff, Instr.idx, Instr.arg]
    congr 1
    · rw [cut_low _ _ (by decide)]
      exact BitVec.extractLsb'_eq_self

theorem lfoRender (l : BitVec 4) :
    Statement (.lfoRender l) := by
  refine ⟨_, by rw [encode, rowOf_wordOf]; rfl, rfl, ?_, ?_⟩
  · show wordOf 0x23 l 0 &&& 0xFF0FFFFFFFFFFFFF = 0x2300000000000000
    exact wordOf_and (j := 0#4) (b := BitVec.allOnes 48) (i' := 0) (a' := 0) rfl rfl BitVec.and_zero rfl
  · simp only [encode, idxOf_wordOf, Instr.idx]

theorem lfoSync (l : BitVec 4) (step : BitVec 8) :
    Statement (.lfoSync l step) := by
  refine ⟨_, by rw [encode, rowOf_wordOf]; rfl, rfl, ?_, ?_⟩
  · show wordOf 0x24 l (0#40 ++ step) &&& 0xFF0FFFFFFFFFFF00 = 0x2400000000000000
    refine wordOf_and (j := 0#4) (b := BitVec.allOnes 40 ++ 0#8) (i' := 0) (a' := 0)
      rfl rfl BitVec.and_zero ?_
    show (0#40 ++ step : BitVec (40 + 8)) &&&
      (BitVec.allOnes 40 ++ 0#8) = 0
    simp only [BitVec.and_append, BitVec.and_zero, BitVec.zero_and]
    rfl
  · simp only [encode, idxOf_wordOf, argOf_wordOf, Nat.reduceAdd, Nat.reduceLeDiff, Instr.idx, Instr.arg]
    congr 1
    · rw [cut_low _ _ (by decide)]
      exact BitVec.extractLsb'_eq_self

theorem clkInit : Statement .clkInit := ⟨_, rfl, rfl, by decide, rfl⟩

theorem clkUpdate (bpm template amount : BitVec 8) :
    Statement (.clkUpdate bpm template amount) := by
  refine ⟨_, by rw [encode, rowOf_wordOf]; rfl, rfl, ?_, ?_⟩
  · show wordOf 0x31 0 (0#24 ++ amount ++ template ++ bpm) &&& 0xFFFFFFFFFF000000 = 0x3100000000000000
    refine wordOf_and (j := 0xF#4) (b := BitVec.allOnes 24 ++ 0#8 ++ 0#8 ++ 0#8) (i' := 0) (a' := 0)
      rfl rfl rfl ?_
    show (0#24 ++ amount ++ template ++ bpm : BitVec (24 + 8 + 8 + 8)) &&&
      (BitVec.allOnes 24 ++ 0#8 ++ 0#8 ++ 0#8) = 0
    simp only [BitVec.and_append, BitVec.and_zero, BitVec.zero_and]
    rfl
  · simp only [encode, argOf_wordOf, Nat.reduceAdd, Nat.reduceLeDiff, Instr.arg]
    congr 1
    · rw [cut_low _ _ (by decide)]
      exact BitVec.extractLsb'_eq_self
    · rw [cut_high _ _ (by decide), cut_low _ _ (by decide)]
      exact BitVec.extractLsb'_eq_self
    · rw [cut_high _ _ (by decide), cut_high _ _ (by decide), cut_low _ _ (by decide)]
      exact BitVec.extractLsb'_eq_self

theorem clkSetres (res : BitVec 8) :
    Statement (.clkSetres res) := by
  refine ⟨_, by rw [encode, rowOf_wordOf]; rfl, rfl, ?_, ?_⟩
  · show wordOf 0x32 0 (0#40 ++ res) &&& 0xFFFFFFFFFFFFFF00 = 0x3200000000000000
    refine wordOf_and (j := 0xF#4) (b := BitVec.allOnes 40 ++ 0#8) (i' := 0) (a' := 0)
      rfl rfl rfl ?_
    show (0#40 ++ res : BitVec (40 + 8)) &&&
      (BitVec.allOnes 40 ++ 0#8) = 0
    simp only [BitVec.and_append, BitVec.and_zero, BitVec.zero_and]
    rfl
  · simp only [encode, argOf_wordOf, Nat.reduceAdd, Nat.reduceLeDiff, Instr.arg]
    congr 1
    · rw [cut_low _ _ (by decide)]
      exact BitVec.extractLsb'_eq_self

theorem clkTick : Statement .clkTick := ⟨_, rfl, rfl, by decide, rfl⟩

theorem clkCount : Statement .clkCount := ⟨_, rfl, rfl, by decide, rfl⟩

theorem gldInit : Statement .gldInit := ⟨_, rfl, rfl, by decide, rfl⟩

theorem gldSetinc (inc : BitVec 16) :
    Statement (.gldSetinc inc) := by
  refine ⟨_, by rw [encode, rowOf_wordOf]; rfl, rfl, ?_, ?_⟩
  · show wordOf 0x41 0 (0#32 ++ inc) &&& 0xFFFFFFFFFFFF0000 = 0x4100000000000000
    refine wordOf_and (j := 0xF#4) (b := BitVec.allOnes 32 ++ 0#16) (i' := 0) (a' := 0)
      rfl rfl rfl ?_
    show (0#32 ++ inc : BitVec (32 + 16)) &&&
      (BitVec.allOnes 32 ++ 0#16) = 0
    simp only [BitVec.and_append, BitVec.and_zero, BitVec.zero_and]
    rfl
  · simp only [encode, argOf_wordOf, Nat.reduceAdd, Nat.reduceLeDiff, Instr.arg]
    congr 1
    · rw [cut_low _ _ (by decide)]
      exact BitVec.extractLsb'_eq_self

theorem gldStart (target : BitVec 16) (g : Bool) :
    Statement (.gldStart target g) := by
  refine ⟨_, by rw [encode, rowOf_wordOf]; rfl, rfl, ?_, ?_⟩
  · show wordOf 0x42 0 (0#31 ++ BitVec.ofBool g ++ target) &&& 0xFFFFFFFFFFFE0000 = 0x4200000000000000
    refine wordOf_and (j := 0xF#4) (b := BitVec.allOnes 31 ++ 0#1 ++ 0#16) (i' := 0) (a' := 0)
      rfl rfl rfl ?_
    show (0#31 ++ BitVec.ofBool g ++ target : BitVec (31 + 1 + 16)) &&&
      (BitVec.allOnes 31 ++ 0#1 ++ 0#16) = 0
    simp only [BitVec.and_append, BitVec.and_zero, BitVec.zero_and]
    rfl
  · simp only [encode, argOf_wordOf, Nat.reduceAdd, Nat.reduceLeDiff, argFlag_wordOf, Nat.reduceLT, Instr.arg]
    congr 1
    · rw [cut_low _ _ (by decide)]
      exact BitVec.extractLsb'_eq_self
    · rw [bit_high _ _ (by decide), bit_low _ _ (by decide)]
      exact bit_flag g

theorem gldRender : Statement .gldRender := ⟨_, rfl, rfl, by decide, rfl⟩

theorem cvdInit : Statement .cvdInit := ⟨_, rfl, rfl, by decide, rfl⟩

theorem cvdSetcal (scaleLow scaleHigh offset : BitVec 16) :
    Statement (.cvdSetcal scaleLow scaleHigh offset) := by
  refine ⟨_, by rw [encode, rowOf_wordOf]; rfl, rfl, ?_, ?_⟩
  · show wordOf 0x51 0 (offset ++ scaleHigh ++ scaleLow) &&& 0xFFFF000000000000 = 0x5100000000000000
    refine wordOf_and (j := 0xF#4) (b := 0#16 ++ 0#16 ++ 0#16) (i' := 0) (a' := 0)
      rfl rfl rfl ?_
    show (offset ++ scaleHigh ++ scaleLow : BitVec (16 + 16 + 16)) &&&
      (0#16 ++ 0#16 ++ 0#16) = 0
    simp only [BitVec.and_append, BitVec.and_zero]
    rfl
  · simp only [encode, argOf_wordOf, Nat.reduceAdd, Nat.reduceLeDiff, Instr.arg]
    congr 1
    · rw [cut_low _ _ (by decide)]
      exact BitVec.extractLsb'_eq_self
    · rw [cut_high _ _ (by decide), cut_low _ _ (by decide)]
      exact BitVec.extractLsb'_eq_self
    · rw [cut_high _ _ (by decide), cut_high _ _ (by decide)]
      exact BitVec.extractLsb'_eq_self

theorem cvdSetin (c : BitVec 4) (value : BitVec 32) :
    Statement (.cvdSetin c value) := by
  refine ⟨_, by rw [encode, rowOf_wordOf]; rfl, rfl, ?_, ?_⟩
  · show wordOf 0x52 c (0#16 ++ value) &&& 0xFF0FFFFF00000000 = 0x5200000000000000
    refine wordOf_and (j := 0#4) (b := BitVec.allOnes 16 ++ 0#32) (i' := 0) (a' := 0)
      rfl rfl BitVec.and_zero ?_
    show (0#16 ++ value : BitVec (16 + 32)) &&&
      (BitVec.allOnes 16 ++ 0#32) = 0
    simp only [BitVec.and_append, BitVec.and_zero, BitVec.zero_and]
    rfl
  · simp only [encode, idxOf_wordOf, argOf_wordOf, Nat.reduceAdd, Nat.reduceLeDiff, Instr.idx, Instr.arg]
    congr 1
    · rw [cut_low _ _ (by decide)]
      exact BitVec.extractLsb'_eq_self

theorem cvdWrite : Statement .cvdWrite := ⟨_, rfl, rfl, by decide, rfl⟩

theorem cvdRead : Statement .cvdRead := ⟨_, rfl, rfl, by decide, rfl⟩

theorem cvdReadable : Statement .cvdReadable := ⟨_, rfl, rfl, by decide, rfl⟩

theorem cvdWritable : Statement .cvdWritable := ⟨_, rfl, rfl, by decide, rfl⟩

theorem cvdLock (vco pw vcf vca : BitVec 12) :
    Statement (.cvdLock vco pw vcf vca) := by
  refine ⟨_, by rw [encode, rowOf_wordOf]; rfl, rfl, ?_, ?_⟩
  · show wordOf 0x57 0 (vca ++ vcf ++ pw ++ vco) &&& 0xFFFF000000000000 = 0x5700000000000000
    refine wordOf_and (j := 0xF#4) (b := 0#12 ++ 0#12 ++ 0#12 ++ 0#12) (i' := 0) (a' := 0)
      rfl rfl rfl ?_
    show (vca ++ vcf ++ pw ++ vco : BitVec (12 + 12 + 12 + 12)) &&&
      (0#12 ++ 0#12 ++ 0#12 ++ 0#12) = 0
    simp only [BitVec.and_append, BitVec.and_zero]
    rfl
  · simp only [encode, argOf_wordOf, Nat.reduceAdd, Nat.reduceLeDiff, Instr.arg]
    congr 1
    · rw [cut_low _ _ (by decide)]
      exact BitVec.extractLsb'_eq_self
    · rw [cut_high _ _ (by decide), cut_low _ _ (by decide)]
      exact BitVec.extractLsb'_eq_self
    · rw [cut_high _ _ (by decide), cut_high _ _ (by decide), cut_low _ _ (by decide)]
      exact BitVec.extractLsb'_eq_self
    · rw [cut_high _ _ (by decide), cut_high _ _ (by decide), cut_high _ _ (by decide)]
      exact BitVec.extractLsb'_eq_self

theorem cvdUnlock : Statement .cvdUnlock := ⟨_, rfl, rfl, by decide, rfl⟩

theorem voxInit : Statement .voxInit := ⟨_, rfl, rfl, by decide, rfl⟩

theorem voxGateOn : Statement .voxGateOn := ⟨_, rfl, rfl, by decide, rfl⟩

theorem voxGateOff : Statement .voxGateOff := ⟨_, rfl, rfl, by decide, rfl⟩

theorem voxNoteOn (note velocity : BitVec 7) (slide accent legato : Bool) :
    Statement (.voxNoteOn note velocity slide accent legato) := by
  refine ⟨_, by rw [encode, rowOf_wordOf]; rfl, rfl, ?_, ?_⟩
  · show wordOf 0x63 0 (0#29 ++ BitVec.ofBool legato ++ BitVec.ofBool accent ++ BitVec.ofBool slide ++ 0#1 ++ velocity ++ 0#1 ++ note) &&& 0xFFFFFFFFFFF88080 = 0x6300000000000000
    refine wordOf_and (j := 0xF#4) (b := BitVec.allOnes 29 ++ 0#1 ++ 0#1 ++ 0#1 ++ 0x1#1 ++ 0#7 ++ 0x1#1 ++ 0#7) (i' := 0) (a' := 0)
      rfl rfl rfl ?_
    show (0#29 ++ BitVec.ofBool legato ++ BitVec.ofBool accent ++ BitVec.ofBool slide ++ 0#1 ++ velocity ++ 0#1 ++ note : BitVec (29 + 1 + 1 + 1 + 1 + 7 + 1 + 7)) &&&
      (BitVec.allOnes 29 ++ 0#1 ++ 0#1 ++ 0#1 ++ 0x1#1 ++ 0#7 ++ 0x1#1 ++ 0#7) = 0
    simp only [BitVec.and_append, BitVec.and_zero, BitVec.zero_and]
    rfl
  · simp only [encode, argOf_wordOf, Nat.reduceAdd, Nat.reduceLeDiff, argFlag_wordOf, Nat.reduceLT, Instr.arg]
    congr 1
    · rw [cut_low _ _ (by decide)]
      exact BitVec.extractLsb'_eq_self
    · rw [cut_high _ _ (by decide), cut_high _ _ (by decide), cut_low _ _ (by decide)]
      exact BitVec.extractLsb'_eq_self
    · rw [bit_high _ _ (by decide), bit_high _ _ (by decide), bit_high _ _ (by decide), bit_high _ _ (by decide), bit_low _ _ (by decide)]
      exact bit_flag slide
    · rw [bit_high _ _ (by decide), bit_high _ _ (by decide), bit_high _ _ (by decide), bit_high _ _ (by decide), bit_high _ _ (by decide), bit_low _ _ (by decide)]
      exact bit_flag accent
    · rw [bit_high _ _ (by decide), bit_high _ _ (by decide), bit_high _ _ (by decide), bit_high _ _ (by decide), bit_high _ _ (by decide), bit_high _ _ (by decide), bit_low _ _ (by decide)]
      exact bit_flag legato

theorem voxSample : Statement .voxSample := ⟨_, rfl, rfl, by decide, rfl⟩

theorem voxRefresh : Statement .voxRefresh := ⟨_, rfl, rfl, by decide, rfl⟩

theorem voxSetctx (offset : BitVec 5) (value : BitVec 8) :
    Statement (.voxSetctx offset value) := by
  refine ⟨_, by rw [encode, rowOf_wordOf]; rfl, rfl, ?_, ?_⟩
  · show wordOf 0x66 0 (0#32 ++ value ++ 0#3 ++ offset) &&& 0xFFFFFFFFFFFF00E0 = 0x6600000000000000
    refine wordOf_and (j := 0xF#4) (b := BitVec.allOnes 32 ++ 0#8 ++ 0x7#3 ++ 0#5) (i' := 0) (a' := 0)
      rfl rfl rfl ?_
    show (0#32 ++ value ++ 0#3 ++ offset : BitVec (32 + 8 + 3 + 5)) &&&
      (BitVec.allOnes 32 ++ 0#8 ++ 0x7#3 ++ 0#5) = 0
    simp only [BitVec.and_append, BitVec.and_zero, BitVec.zero_and]
    rfl
  · simp only [encode, argOf_wordOf, Nat.reduceAdd, Nat.reduceLeDiff, Instr.arg]
    congr 1
    · rw [cut_low _ _ (by decide)]
      exact BitVec.extractLsb'_eq_self
    · rw [cut_high _ _ (by decide), cut_high _ _ (by decide), cut_low _ _ (by decide)]
      exact BitVec.extractLsb'_eq_self

theorem voxSetlegato (flag : Bool) :
    Statement (.voxSetlegato flag) := by
  refine ⟨_, by rw [encode, rowOf_wordOf]; rfl, rfl, ?_, ?_⟩
  · show wordOf 0x67 0 (0#47 ++ BitVec.ofBool flag) &&& 0xFFFFFFFFFFFFFFFE = 0x6700000000000000
    refine wordOf_and (j := 0xF#4) (b := BitVec.allOnes 47 ++ 0#1) (i' := 0) (a' := 0)
      rfl rfl rfl ?_
    show (0#47 ++ BitVec.ofBool flag : BitVec (47 + 1)) &&&
      (BitVec.allOnes 47 ++ 0#1) = 0
    simp only [BitVec.and_append, BitVec.and_zero, BitVec.zero_and]
    rfl
  · simp only [encode, argFlag_wordOf, Nat.reduceLT, Instr.arg]
    congr 1
    · rw [bit_low _ _ (by decide)]
      exact bit_flag flag

theorem voxRdretrig : Statement .voxRdretrig := ⟨_, rfl, rfl, by decide, rfl⟩

end Sys2Proof.Laws.EncodedWord
end

