-- ==== Sys2Proof/Laws/State.lean ====
section
/-! SUPPORT. One lemma for each field under each named update of `State`: what the update leaves there. No proof need unfold an update. -/

set_option Elab.async false

namespace Sys2Proof.Machine

/-! The registers of one envelope replaced. -/

@[simp] theorem State.setEnv_sys (s : State) (e : Fin nEnv) (x : Env) : (s.setEnv e x).sys = s.sys := rfl
@[simp] theorem State.setEnv_env (s : State) (e : Fin nEnv) (x : Env) : (s.setEnv e x).env = s.env.set e x := rfl
@[simp] theorem State.setEnv_lfo (s : State) (e : Fin nEnv) (x : Env) : (s.setEnv e x).lfo = s.lfo := rfl
@[simp] theorem State.setEnv_clk (s : State) (e : Fin nEnv) (x : Env) : (s.setEnv e x).clk = s.clk := rfl
@[simp] theorem State.setEnv_gld (s : State) (e : Fin nEnv) (x : Env) : (s.setEnv e x).gld = s.gld := rfl
@[simp] theorem State.setEnv_cvd (s : State) (e : Fin nEnv) (x : Env) : (s.setEnv e x).cvd = s.cvd := rfl
@[simp] theorem State.setEnv_vox (s : State) (e : Fin nEnv) (x : Env) : (s.setEnv e x).vox = s.vox := rfl
@[simp] theorem State.setEnv_rng (s : State) (e : Fin nEnv) (x : Env) : (s.setEnv e x).rng = s.rng := rfl
@[simp] theorem State.setEnv_portC (s : State) (e : Fin nEnv) (x : Env) : (s.setEnv e x).portC = s.portC := rfl
@[simp] theorem State.setEnv_portT (s : State) (e : Fin nEnv) (x : Env) : (s.setEnv e x).portT = s.portT := rfl
@[simp] theorem State.setEnv_ctl (s : State) (e : Fin nEnv) (x : Env) : (s.setEnv e x).ctl = s.ctl := rfl
@[simp] theorem State.setEnv_schedule (s : State) (e : Fin nEnv) (x : Env) : (s.setEnv e x).schedule = s.schedule := rfl

/-! The registers of one LFO replaced. -/

@[simp] theorem State.setLfo_sys (s : State) (l : Fin nLfo) (x : Lfo) : (s.setLfo l x).sys = s.sys := rfl
@[simp] theorem State.setLfo_env (s : State) (l : Fin nLfo) (x : Lfo) : (s.setLfo l x).env = s.env := rfl
@[simp] theorem State.setLfo_lfo (s : State) (l : Fin nLfo) (x : Lfo) : (s.setLfo l x).lfo = s.lfo.set l x := rfl
@[simp] theorem State.setLfo_clk (s : State) (l : Fin nLfo) (x : Lfo) : (s.setLfo l x).clk = s.clk := rfl
@[simp] theorem State.setLfo_gld (s : State) (l : Fin nLfo) (x : Lfo) : (s.setLfo l x).gld = s.gld := rfl
@[simp] theorem State.setLfo_cvd (s : State) (l : Fin nLfo) (x : Lfo) : (s.setLfo l x).cvd = s.cvd := rfl
@[simp] theorem State.setLfo_vox (s : State) (l : Fin nLfo) (x : Lfo) : (s.setLfo l x).vox = s.vox := rfl
@[simp] theorem State.setLfo_rng (s : State) (l : Fin nLfo) (x : Lfo) : (s.setLfo l x).rng = s.rng := rfl
@[simp] theorem State.setLfo_portC (s : State) (l : Fin nLfo) (x : Lfo) : (s.setLfo l x).portC = s.portC := rfl
@[simp] theorem State.setLfo_portT (s : State) (l : Fin nLfo) (x : Lfo) : (s.setLfo l x).portT = s.portT := rfl
@[simp] theorem State.setLfo_ctl (s : State) (l : Fin nLfo) (x : Lfo) : (s.setLfo l x).ctl = s.ctl := rfl
@[simp] theorem State.setLfo_schedule (s : State) (l : Fin nLfo) (x : Lfo) : (s.setLfo l x).schedule = s.schedule := rfl

/-! All envelopes triggered. -/

@[simp] theorem State.triggerAll_sys (s : State) (g : Segment) : (s.triggerAll g).sys = s.sys := rfl
@[simp] theorem State.triggerAll_env (s : State) (g : Segment) : (s.triggerAll g).env = mapAll (fun e => e.trigger g) s.env := rfl
@[simp] theorem State.triggerAll_lfo (s : State) (g : Segment) : (s.triggerAll g).lfo = s.lfo := rfl
@[simp] theorem State.triggerAll_clk (s : State) (g : Segment) : (s.triggerAll g).clk = s.clk := rfl
@[simp] theorem State.triggerAll_gld (s : State) (g : Segment) : (s.triggerAll g).gld = s.gld := rfl
@[simp] theorem State.triggerAll_cvd (s : State) (g : Segment) : (s.triggerAll g).cvd = s.cvd := rfl
@[simp] theorem State.triggerAll_vox (s : State) (g : Segment) : (s.triggerAll g).vox = s.vox := rfl
@[simp] theorem State.triggerAll_rng (s : State) (g : Segment) : (s.triggerAll g).rng = s.rng := rfl
@[simp] theorem State.triggerAll_portC (s : State) (g : Segment) : (s.triggerAll g).portC = s.portC := rfl
@[simp] theorem State.triggerAll_portT (s : State) (g : Segment) : (s.triggerAll g).portT = s.portT := rfl
@[simp] theorem State.triggerAll_ctl (s : State) (g : Segment) : (s.triggerAll g).ctl = s.ctl := rfl
@[simp] theorem State.triggerAll_schedule (s : State) (g : Segment) : (s.triggerAll g).schedule = s.schedule := rfl

/-! A gate-on. -/

@[simp] theorem State.gateOn_sys (s : State) : (s.gateOn).sys = s.sys := rfl
@[simp] theorem State.gateOn_env (s : State) : (s.gateOn).env = mapAll (fun e => e.trigger .attack) s.env := rfl
@[simp] theorem State.gateOn_lfo (s : State) : (s.gateOn).lfo = s.lfo := rfl
@[simp] theorem State.gateOn_clk (s : State) : (s.gateOn).clk = s.clk := rfl
@[simp] theorem State.gateOn_gld (s : State) : (s.gateOn).gld = s.gld := rfl
@[simp] theorem State.gateOn_cvd (s : State) : (s.gateOn).cvd = s.cvd := rfl
@[simp] theorem State.gateOn_vox (s : State) : (s.gateOn).vox = { s.vox with retrig := s.vox.retrig || s.gated } := rfl
@[simp] theorem State.gateOn_rng (s : State) : (s.gateOn).rng = s.rng := rfl
@[simp] theorem State.gateOn_portC (s : State) : (s.gateOn).portC = s.portC := rfl
@[simp] theorem State.gateOn_portT (s : State) : (s.gateOn).portT = s.portT := rfl
@[simp] theorem State.gateOn_ctl (s : State) : (s.gateOn).ctl = s.ctl := rfl
@[simp] theorem State.gateOn_schedule (s : State) : (s.gateOn).schedule = s.schedule := rfl

/-! One entry of the interleaving used. -/

@[simp] theorem State.consumeSchedule_sys (s : State) : (s.consumeSchedule).sys = s.sys := rfl
@[simp] theorem State.consumeSchedule_env (s : State) : (s.consumeSchedule).env = s.env := rfl
@[simp] theorem State.consumeSchedule_lfo (s : State) : (s.consumeSchedule).lfo = s.lfo := rfl
@[simp] theorem State.consumeSchedule_clk (s : State) : (s.consumeSchedule).clk = s.clk := rfl
@[simp] theorem State.consumeSchedule_gld (s : State) : (s.consumeSchedule).gld = s.gld := rfl
@[simp] theorem State.consumeSchedule_cvd (s : State) : (s.consumeSchedule).cvd = s.cvd := rfl
@[simp] theorem State.consumeSchedule_vox (s : State) : (s.consumeSchedule).vox = s.vox := rfl
@[simp] theorem State.consumeSchedule_rng (s : State) : (s.consumeSchedule).rng = s.rng := rfl
@[simp] theorem State.consumeSchedule_portC (s : State) : (s.consumeSchedule).portC = s.portC := rfl
@[simp] theorem State.consumeSchedule_portT (s : State) : (s.consumeSchedule).portT = s.portT := rfl
@[simp] theorem State.consumeSchedule_ctl (s : State) : (s.consumeSchedule).ctl = s.ctl := rfl
@[simp] theorem State.consumeSchedule_schedule (s : State) : (s.consumeSchedule).schedule = s.schedule.tail := rfl

/-! A result returned to port C. -/

@[simp] theorem State.replyC_sys (s : State) (r : ResultWord) : (s.reply .C r).sys = s.sys := rfl
@[simp] theorem State.replyC_env (s : State) (r : ResultWord) : (s.reply .C r).env = s.env := rfl
@[simp] theorem State.replyC_lfo (s : State) (r : ResultWord) : (s.reply .C r).lfo = s.lfo := rfl
@[simp] theorem State.replyC_clk (s : State) (r : ResultWord) : (s.reply .C r).clk = s.clk := rfl
@[simp] theorem State.replyC_gld (s : State) (r : ResultWord) : (s.reply .C r).gld = s.gld := rfl
@[simp] theorem State.replyC_cvd (s : State) (r : ResultWord) : (s.reply .C r).cvd = s.cvd := rfl
@[simp] theorem State.replyC_vox (s : State) (r : ResultWord) : (s.reply .C r).vox = s.vox := rfl
@[simp] theorem State.replyC_rng (s : State) (r : ResultWord) : (s.reply .C r).rng = s.rng := rfl
@[simp] theorem State.replyC_portC (s : State) (r : ResultWord) : (s.reply .C r).portC = { s.portC with response := some ⟨r, false⟩ } := rfl
@[simp] theorem State.replyC_portT (s : State) (r : ResultWord) : (s.reply .C r).portT = s.portT := rfl
@[simp] theorem State.replyC_ctl (s : State) (r : ResultWord) : (s.reply .C r).ctl = s.ctl := rfl
@[simp] theorem State.replyC_schedule (s : State) (r : ResultWord) : (s.reply .C r).schedule = s.schedule := rfl

/-! A result returned to port T. -/

@[simp] theorem State.replyT_sys (s : State) (r : ResultWord) : (s.reply .T r).sys = s.sys := rfl
@[simp] theorem State.replyT_env (s : State) (r : ResultWord) : (s.reply .T r).env = s.env := rfl
@[simp] theorem State.replyT_lfo (s : State) (r : ResultWord) : (s.reply .T r).lfo = s.lfo := rfl
@[simp] theorem State.replyT_clk (s : State) (r : ResultWord) : (s.reply .T r).clk = s.clk := rfl
@[simp] theorem State.replyT_gld (s : State) (r : ResultWord) : (s.reply .T r).gld = s.gld := rfl
@[simp] theorem State.replyT_cvd (s : State) (r : ResultWord) : (s.reply .T r).cvd = s.cvd := rfl
@[simp] theorem State.replyT_vox (s : State) (r : ResultWord) : (s.reply .T r).vox = s.vox := rfl
@[simp] theorem State.replyT_rng (s : State) (r : ResultWord) : (s.reply .T r).rng = s.rng := rfl
@[simp] theorem State.replyT_portC (s : State) (r : ResultWord) : (s.reply .T r).portC = s.portC := rfl
@[simp] theorem State.replyT_portT (s : State) (r : ResultWord) : (s.reply .T r).portT = { s.portT with response := some ⟨r, false⟩ } := rfl
@[simp] theorem State.replyT_ctl (s : State) (r : ResultWord) : (s.reply .T r).ctl = s.ctl := rfl
@[simp] theorem State.replyT_schedule (s : State) (r : ResultWord) : (s.reply .T r).schedule = s.schedule := rfl

/-! A rejection on port C. -/

@[simp] theorem State.rejectC_sys (s : State) (k : Reject) : (s.reject .C k).sys = s.sys.recordReject k := rfl
@[simp] theorem State.rejectC_env (s : State) (k : Reject) : (s.reject .C k).env = s.env := rfl
@[simp] theorem State.rejectC_lfo (s : State) (k : Reject) : (s.reject .C k).lfo = s.lfo := rfl
@[simp] theorem State.rejectC_clk (s : State) (k : Reject) : (s.reject .C k).clk = s.clk := rfl
@[simp] theorem State.rejectC_gld (s : State) (k : Reject) : (s.reject .C k).gld = s.gld := rfl
@[simp] theorem State.rejectC_cvd (s : State) (k : Reject) : (s.reject .C k).cvd = s.cvd := rfl
@[simp] theorem State.rejectC_vox (s : State) (k : Reject) : (s.reject .C k).vox = s.vox := rfl
@[simp] theorem State.rejectC_rng (s : State) (k : Reject) : (s.reject .C k).rng = s.rng := rfl
@[simp] theorem State.rejectC_portC (s : State) (k : Reject) : (s.reject .C k).portC = { s.portC with response := some ⟨0, true⟩ } := rfl
@[simp] theorem State.rejectC_portT (s : State) (k : Reject) : (s.reject .C k).portT = s.portT := rfl
@[simp] theorem State.rejectC_ctl (s : State) (k : Reject) : (s.reject .C k).ctl = s.ctl := rfl
@[simp] theorem State.rejectC_schedule (s : State) (k : Reject) : (s.reject .C k).schedule = s.schedule := rfl

/-! A rejection on port T. -/

@[simp] theorem State.rejectT_sys (s : State) (k : Reject) : (s.reject .T k).sys = s.sys.recordReject k := rfl
@[simp] theorem State.rejectT_env (s : State) (k : Reject) : (s.reject .T k).env = s.env := rfl
@[simp] theorem State.rejectT_lfo (s : State) (k : Reject) : (s.reject .T k).lfo = s.lfo := rfl
@[simp] theorem State.rejectT_clk (s : State) (k : Reject) : (s.reject .T k).clk = s.clk := rfl
@[simp] theorem State.rejectT_gld (s : State) (k : Reject) : (s.reject .T k).gld = s.gld := rfl
@[simp] theorem State.rejectT_cvd (s : State) (k : Reject) : (s.reject .T k).cvd = s.cvd := rfl
@[simp] theorem State.rejectT_vox (s : State) (k : Reject) : (s.reject .T k).vox = s.vox := rfl
@[simp] theorem State.rejectT_rng (s : State) (k : Reject) : (s.reject .T k).rng = s.rng := rfl
@[simp] theorem State.rejectT_portC (s : State) (k : Reject) : (s.reject .T k).portC = s.portC := rfl
@[simp] theorem State.rejectT_portT (s : State) (k : Reject) : (s.reject .T k).portT = { s.portT with response := some ⟨0, true⟩ } := rfl
@[simp] theorem State.rejectT_ctl (s : State) (k : Reject) : (s.reject .T k).ctl = s.ctl := rfl
@[simp] theorem State.rejectT_schedule (s : State) (k : Reject) : (s.reject .T k).schedule = s.schedule := rfl

/-! A word taken on port C. -/

@[simp] theorem State.takeC_sys (s : State) : (s.take .C).sys = s.sys := rfl
@[simp] theorem State.takeC_env (s : State) : (s.take .C).env = s.env := rfl
@[simp] theorem State.takeC_lfo (s : State) : (s.take .C).lfo = s.lfo := rfl
@[simp] theorem State.takeC_clk (s : State) : (s.take .C).clk = s.clk := rfl
@[simp] theorem State.takeC_gld (s : State) : (s.take .C).gld = s.gld := rfl
@[simp] theorem State.takeC_cvd (s : State) : (s.take .C).cvd = s.cvd := rfl
@[simp] theorem State.takeC_vox (s : State) : (s.take .C).vox = s.vox := rfl
@[simp] theorem State.takeC_rng (s : State) : (s.take .C).rng = s.rng := rfl
@[simp] theorem State.takeC_portC (s : State) : (s.take .C).portC = { pending := s.portC.pending.tail, index := s.portC.index + 1, response := none } := rfl
@[simp] theorem State.takeC_portT (s : State) : (s.take .C).portT = s.portT := rfl
@[simp] theorem State.takeC_ctl (s : State) : (s.take .C).ctl = s.ctl := rfl
@[simp] theorem State.takeC_schedule (s : State) : (s.take .C).schedule = s.schedule := rfl

/-! A word taken on port T. -/

@[simp] theorem State.takeT_sys (s : State) : (s.take .T).sys = s.sys := rfl
@[simp] theorem State.takeT_env (s : State) : (s.take .T).env = s.env := rfl
@[simp] theorem State.takeT_lfo (s : State) : (s.take .T).lfo = s.lfo := rfl
@[simp] theorem State.takeT_clk (s : State) : (s.take .T).clk = s.clk := rfl
@[simp] theorem State.takeT_gld (s : State) : (s.take .T).gld = s.gld := rfl
@[simp] theorem State.takeT_cvd (s : State) : (s.take .T).cvd = s.cvd := rfl
@[simp] theorem State.takeT_vox (s : State) : (s.take .T).vox = s.vox := rfl
@[simp] theorem State.takeT_rng (s : State) : (s.take .T).rng = s.rng := rfl
@[simp] theorem State.takeT_portC (s : State) : (s.take .T).portC = s.portC := rfl
@[simp] theorem State.takeT_portT (s : State) : (s.take .T).portT = { pending := s.portT.pending.tail, index := s.portT.index + 1, response := none } := rfl
@[simp] theorem State.takeT_ctl (s : State) : (s.take .T).ctl = s.ctl := rfl
@[simp] theorem State.takeT_schedule (s : State) : (s.take .T).schedule = s.schedule := rfl

/-! One sample. -/

@[simp] theorem State.sample_sys (s : State) (cfg : Config) : (s.sample cfg).sys = s.sys := rfl
@[simp] theorem State.sample_env (s : State) (cfg : Config) : (s.sample cfg).env = mapAll (Env.render cfg) s.env := rfl
@[simp] theorem State.sample_lfo (s : State) (cfg : Config) : (s.sample cfg).lfo = (renderLfos s.lfo s.rng).1 := rfl
@[simp] theorem State.sample_clk (s : State) (cfg : Config) : (s.sample cfg).clk = s.clk := rfl
@[simp] theorem State.sample_gld (s : State) (cfg : Config) : (s.sample cfg).gld = s.gld.render := rfl
@[simp] theorem State.sample_vox (s : State) (cfg : Config) : (s.sample cfg).vox = s.vox := rfl
@[simp] theorem State.sample_rng (s : State) (cfg : Config) : (s.sample cfg).rng = (renderLfos s.lfo s.rng).2 := rfl
@[simp] theorem State.sample_portC (s : State) (cfg : Config) : (s.sample cfg).portC = s.portC := rfl
@[simp] theorem State.sample_portT (s : State) (cfg : Config) : (s.sample cfg).portT = s.portT := rfl
@[simp] theorem State.sample_ctl (s : State) (cfg : Config) : (s.sample cfg).ctl = s.ctl := rfl
@[simp] theorem State.sample_schedule (s : State) (cfg : Config) : (s.sample cfg).schedule = s.schedule := rfl

/-! Both ports at once. -/

@[simp] theorem State.port_C (s : State) : s.port .C = s.portC := rfl
@[simp] theorem State.port_T (s : State) : s.port .T = s.portT := rfl
@[simp] theorem State.consumeSchedule_port (s : State) (p : Port) : s.consumeSchedule.port p = s.port p := by cases p <;> rfl

end Sys2Proof.Machine
end

