-- ==== Sys2Proof/Laws/Step.lean ====
section
/-! SUPPORT. What a step can do, said once. -/

namespace Sys2Proof.Machine

/-- All an issued word can do: be rejected by checks 1 to 3, or be performed. -/
theorem issue_cases {p : Port} {w : CommandWord} {s t : State} (h : issue p w s = .next t) :
    (∃ k, decodeOn p w = .error k ∧ t = s.reject p k) ∨ (∃ i, decodeOn p w = .ok i ∧ exec i s = .next t) := by
  unfold issue at h
  cases hd : decodeOn p w with
  | error k => rw [hd] at h; exact .inl ⟨k, rfl, (Host.Outcome.next.inj h).symm⟩
  | ok i => rw [hd] at h; exact .inr ⟨i, rfl, h⟩

/-- All a step can do: take a word and issue it; go on with the command in progress on port C; or find nothing to do. -/
theorem step_cases {s t : State} (h : step s = .next t) :
    (∃ p w, s.coming = some (p, w) ∧ s.activePort = p ∧ issue p w (s.consumeSchedule.take p) = .next t) ∨
    (s.coming = none ∧ s.activePort = .C ∧ s.ctl ≠ .idle ∧ t = s.consumeSchedule.continueC config) ∨
    (s.coming = none ∧ s.free s.activePort = true ∧ t = s.consumeSchedule) := by
  unfold step at h
  simp only at h
  by_cases hf : s.free s.activePort = true
  · rw [if_pos hf] at h
    cases hh : s.head s.activePort with
    | none => rw [hh] at h; exact .inr (.inr ⟨by simp [State.coming, hf, hh], hf, (Host.Outcome.next.inj h).symm⟩)
    | some w => rw [hh] at h; exact .inl ⟨s.activePort, w, by simp [State.coming, hf, hh], rfl, h⟩
  · rw [if_neg hf] at h
    refine .inr (.inl ⟨by simp [State.coming, hf], ?_, ?_, (Host.Outcome.next.inj h).symm⟩)
    · cases hp : s.activePort with
      | C => rfl
      | T => rw [hp] at hf; exact absurd rfl hf
    · intro hc
      cases hp : s.activePort <;> rw [hp] at hf <;> simp [State.free, hc] at hf

/-- The port of a coming word is the active one, and the word is its first. -/
theorem coming_head {s : State} {p : Port} {w : CommandWord} (h : s.coming = some (p, w)) :
    s.activePort = p ∧ s.free p = true ∧ (s.port p).pending = w :: (s.port p).pending.tail := by
  unfold State.coming at h
  split at h
  · cases hh : s.head s.activePort with
    | none => simp [hh] at h
    | some v =>
      rw [hh] at h
      obtain ⟨rfl, rfl⟩ := Prod.mk.inj (Option.some.inj h)
      refine ⟨rfl, ‹_›, ?_⟩
      unfold State.head at hh
      cases hl : (s.port s.activePort).pending with
      | nil => rw [hl] at hh; cases hh
      | cons x xs => rw [hl] at hh; cases hh; rfl
  · cases h

end Sys2Proof.Machine
end

