-- ==== Sys2Proof/Machine/Pseudo.lean ====
section
/-! DEFINITION. The pseudo-commands of the assembler notation, each with its exact expansion (30_encoding.md R111). They are not commands
of the block and have no words of their own. -/

namespace Sys2Proof.Machine

/-- The five shorthands of 30_encoding.md R111. -/
inductive Pseudo
  | envNoteon (e : BitVec 4)
  | envNoteoff (e : BitVec 4)
  | envKill (e : BitVec 4)
  | clkTicks (n : Nat)
  | envRenders (e : BitVec 4) (n : Nat)
  deriving DecidableEq, Repr

/-- The commands a shorthand stands for, in order. -/
def Pseudo.expand : Pseudo → List Instr
  | .envNoteon e => [.envTrigger e 0]
  | .envNoteoff e => [.envTrigger e 3]
  | .envKill e => [.envTrigger e 4]
  | .clkTicks n => List.replicate n .clkTick
  | .envRenders e n => List.replicate n (.envRender e)

end Sys2Proof.Machine
end

