-- ==== Sys2Proof/Tests/Slice0.lean ====
section
/-! SUPPORT. Small tests, each a named theorem. Expected values come from spec/95_test_vectors.md and the examples of the rules, named in
each comment; they hold under REFCFG, `Config.reference`. At the end, one witness for each statement with hypotheses. -/

set_option Elab.async false

namespace Sys2Proof.Tests

open Sys2Proof Sys2Proof.Machine Sys2Proof.Claims

/-! ## Decoding: one word of every command, from 95_test_vectors.md section 2.1 -/

theorem test_decode_sysNop : decodeOn .C 0x0000000000000000 = .ok .sysNop := by decide
theorem test_decode_sysReset : decodeOn .C 0x0100000000000000 = .ok .sysReset := by decide
theorem test_decode_sysRdreg : decodeOn .C 0x0200000000001000 = .ok (.sysRdreg 0x1000) := by decide
theorem test_decode_envInit : decodeOn .C 0x1020000000000000 = .ok (.envInit 2) := by decide
theorem test_decode_envUpdate : decodeOn .C 0x1100000020801000 = .ok (.envUpdate 0 0 16 128 32) := by decide
theorem test_decode_envTrigger : decodeOn .C 0x1210000000000003 = .ok (.envTrigger 1 3) := by decide
theorem test_decode_envRender : decodeOn .C 0x1300000000000000 = .ok (.envRender 0) := by decide
theorem test_decode_envGate : decodeOn .C 0x1410000000000000 = .ok (.envGate 1) := by decide
theorem test_decode_lfoInit : decodeOn .C 0x2010000000000000 = .ok (.lfoInit 1) := by decide
theorem test_decode_lfoSetshape : decodeOn .C 0x2110000000000007 = .ok (.lfoSetshape 1 7) := by decide
theorem test_decode_lfoSetinc : decodeOn .C 0x2200000030000000 = .ok (.lfoSetinc 0 0x30000000) := by decide
theorem test_decode_lfoRender : decodeOn .C 0x2310000000000000 = .ok (.lfoRender 1) := by decide
theorem test_decode_lfoSync : decodeOn .C 0x2400000000000017 = .ok (.lfoSync 0 23) := by decide
theorem test_decode_clkInit : decodeOn .C 0x3000000000000000 = .ok .clkInit := by decide
theorem test_decode_clkUpdate : decodeOn .C 0x3100000000800078 = .ok (.clkUpdate 120 0 128) := by decide
theorem test_decode_clkSetres : decodeOn .C 0x3200000000000006 = .ok (.clkSetres 6) := by decide
theorem test_decode_clkTick : decodeOn .T 0x3300000000000000 = .ok .clkTick := by decide
theorem test_decode_clkCount : decodeOn .C 0x3400000000000000 = .ok .clkCount := by decide
theorem test_decode_gldInit : decodeOn .C 0x4000000000000000 = .ok .gldInit := by decide
theorem test_decode_gldSetinc : decodeOn .C 0x4100000000004000 = .ok (.gldSetinc 0x4000) := by decide
theorem test_decode_gldStart : decodeOn .C 0x4200000000011E00 = .ok (.gldStart 7680 true) := by decide
theorem test_decode_gldRender : decodeOn .C 0x4300000000000000 = .ok .gldRender := by decide
theorem test_decode_cvdInit : decodeOn .C 0x5000000000000000 = .ok .cvdInit := by decide
theorem test_decode_cvdSetcal : decodeOn .C 0x510003E823281F40 = .ok (.cvdSetcal 8000 9000 1000) := by decide
theorem test_decode_cvdSetin : decodeOn .C 0x52300000FFFFFFFF = .ok (.cvdSetin 3 (-1)) := by decide
theorem test_decode_cvdWrite : decodeOn .C 0x5300000000000000 = .ok .cvdWrite := by decide
theorem test_decode_cvdRead : decodeOn .T 0x5400000000000000 = .ok .cvdRead := by decide
theorem test_decode_cvdReadable : decodeOn .C 0x5500000000000000 = .ok .cvdReadable := by decide
theorem test_decode_cvdWritable : decodeOn .C 0x5600000000000000 = .ok .cvdWritable := by decide
theorem test_decode_cvdLock : decodeOn .C 0x5700001000800FFF = .ok (.cvdLock 4095 2048 0 1) := by decide
theorem test_decode_cvdUnlock : decodeOn .C 0x5800000000000000 = .ok .cvdUnlock := by decide
theorem test_decode_voxInit : decodeOn .C 0x6000000000000000 = .ok .voxInit := by decide
theorem test_decode_voxGateOn : decodeOn .C 0x6100000000000000 = .ok .voxGateOn := by decide
theorem test_decode_voxGateOff : decodeOn .C 0x6200000000000000 = .ok .voxGateOff := by decide
theorem test_decode_voxNoteOn : decodeOn .C 0x6300000000015A43 = .ok (.voxNoteOn 67 90 true false false) := by decide
theorem test_decode_voxSample : decodeOn .C 0x6400000000000000 = .ok .voxSample := by decide
theorem test_decode_voxRefresh : decodeOn .C 0x6500000000000000 = .ok .voxRefresh := by decide
theorem test_decode_voxSetctx : decodeOn .C 0x660000000000FF1F = .ok (.voxSetctx 31 255) := by decide
theorem test_decode_voxSetlegato : decodeOn .C 0x6700000000000001 = .ok (.voxSetlegato true) := by decide
theorem test_decode_voxRdretrig : decodeOn .C 0x6800000000000000 = .ok .voxRdretrig := by decide

/-- Rejections by checks 1 to 3, from 95_test_vectors.md section 2.2. -/
theorem test_decode_rejections :
    decodeOn .T 0 = .error .wrongPort ∧ decodeOn .T 0xFFFFFFFFFFFFFFFF = .error .reservedOpcode ∧
    decodeOn .C 0x0900000000000000 = .error .reservedOpcode ∧ decodeOn .C 0x3300000000000000 = .error .wrongPort ∧
    decodeOn .T 0x3300000000000001 = .error .nonzeroReserved ∧ decodeOn .C 0x1251000000000007 = .error .nonzeroReserved ∧
    decodeOn .C 0x1220000000000008 = .error .nonzeroReserved ∧ decodeOn .C 0x6300000000008000 = .error .nonzeroReserved ∧
    decodeOn .C 0x6810000000000000 = .error .nonzeroReserved := by decide

/-- 20_memory.md R75: byte 0 of a word holds bits 7:0 (the example word of 30_encoding.md R112). -/
theorem test_bytes : bytesOfWord 0x630000000002643C = #v[0x3C, 0x64, 0x02, 0, 0, 0, 0, 0x63] := by decide

/-- 20_memory.md R75: byte 0 holds bits 7:0 of a result and of a DACState (the packed example of 44_cvdac.md R205). -/
theorem test_bytes_result : bytesOfResult 0x000FFF064333 = #v[0x33, 0x43, 0x06, 0xFF, 0x0F, 0x00] ∧
    bytesOfDacState ⟨819, 100, 4095, 0⟩ = #v[0x33, 0x43, 0x06, 0xFF, 0x0F, 0x00] := by decide

/-- 30_encoding.md R111: ENV.NOTEOFF 1 is ENV.TRIGGER 1, RELEASE. -/
theorem test_pseudo : (Pseudo.envNoteoff 1).expand.map encode = [0x1210000000000003] := by decide

/-! ## Well-formedness: an ill-formed term for each check -/

theorem test_wf_addr : (Instr.sysRdreg 0x7000).wellFormed = false := by decide
theorem test_wf_addr_instance : (Instr.sysRdreg 0x1300).wellFormed = false := by decide
theorem test_wf_env : (Instr.envInit 3).wellFormed = false ∧ (Instr.envUpdate 3 0 0 0 0).wellFormed = false ∧
    (Instr.envRender 3).wellFormed = false ∧ (Instr.envGate 15).wellFormed = false := by decide
theorem test_wf_trigger : (Instr.envTrigger 3 0).wellFormed = false ∧ (Instr.envTrigger 0 5).wellFormed = false := by decide
theorem test_wf_lfo : (Instr.lfoInit 2).wellFormed = false ∧ (Instr.lfoSetshape 2 0).wellFormed = false ∧
    (Instr.lfoSetinc 2 0).wellFormed = false ∧ (Instr.lfoRender 2).wellFormed = false ∧ (Instr.lfoSync 2 0).wellFormed = false := by
  decide
theorem test_wf_bpm : (Instr.clkUpdate 0 0 0).wellFormed Config.reference = false := by decide
theorem test_wf_template : (Instr.clkUpdate 120 1 0).wellFormed Config.reference = false := by decide
theorem test_wf_res : (Instr.clkSetres 3).wellFormed = false := by decide
theorem test_wf_channel : (Instr.cvdSetin 4 0).wellFormed = false := by decide
theorem test_wf_legal : (Instr.envTrigger 2 4).wellFormed = true ∧ (Instr.clkSetres 6).wellFormed = true ∧
    (Instr.clkUpdate 255 0 255).wellFormed Config.reference = true ∧ (Instr.sysRdreg 0x603F).wellFormed = true := by decide

/-! ## One step of each command, under REFCFG -/

/-- The next state of an answer, if it is one. -/
def after (a : Answer) : Option State :=
  match a with
  | .next t => some t
  | .fault _ => none
  | .refused _ => none

/-- The response of a port in the next state of an answer. -/
def response (p : Port) (a : Answer) : Option (Nat × Bool) :=
  ((after a).bind fun t => (t.port p).response).map fun r => (r.res.toNat, r.rej)

/-- Reset, then ENV.UPDATE 0, 0, 16, 128, 32 and ENV.TRIGGER 0, ATTACK: the start of vector E1. -/
def attackState : State :=
  State.reset.setEnv 0 ((State.reset.env[0].update Config.reference 0 16 128 32).trigger .attack)

/-- A ring with the samples [1, 2, 3, 4] and [5, 6, 7, 8] waiting in slots 3 and 0. -/
def ringState : State :=
  { State.reset with
    cvd := { State.reset.cvd with wptr := 1, rptr := 3, slot := #v[⟨5, 6, 7, 8⟩, Quad.all 0, Quad.all 0, ⟨1, 2, 3, 4⟩] } }

/-- A voice set up as VOXSETUP of 95_test_vectors.md section 2.8, as far as a sample reads it. -/
def voiceState : State :=
  { State.reset with
    env := mapAll (fun e => (e.update Config.reference 0 16 128 32).trigger .attack) State.reset.env
    lfo := #v[{ State.reset.lfo[0] with inc := 0x10000000 }, { State.reset.lfo[1] with inc := 0x20000000, shape := .square }]
    gld := { source := 7680, target := 7680, counter := 0, inc := 0x4000, pitch := 0 }
    cvd := { State.reset.cvd with scaleLow := 8738, scaleHigh := 8738 }
    vox := { State.reset.vox with
      velocity := 127
      accent := true
      ctx := (((State.reset.vox.ctx.set 0 1).set 1 100).set 2 64).set 3 128 } }

/-- 46_sys.md R240. -/
theorem test_nop : response .C (execSysNop State.reset) = some (0, false) := by decide
/-- 46_sys.md R241, example: ENV[0] is DEAD after SYS.RESET, its increments kept. -/
theorem test_reset : ((after (execSysReset attackState)).map fun t => (t.env[0].seg, t.env[0].incAttack)) = some (.dead, 0x40000000) := by
  decide
/-- 46_sys.md R242, examples: 0x1000 reads 4 after reset; an offset of -100 reads 0xFF9C; 0x1300 is rejected. -/
theorem test_rdreg : response .C (execSysRdreg 0x1000 State.reset) = some (4, false) ∧
    response .C (execSysRdreg 0x5002 { State.reset with cvd := { State.reset.cvd with offset := -100 } }) = some (0xFF9C, false) ∧
    response .C (execSysRdreg 0x1300 State.reset) = some (0, true) := by decide
/-- 40_env.md R131, example. -/
theorem test_envInit : ((after (execEnvInit 0 attackState)).map fun t => (t.env[0].seg, t.env[0].b)) = some (.dead, 0) := by decide
/-- 40_env.md R132, example: INC and TARGET after ENV.UPDATE 0, 0, 16, 128, 32. -/
theorem test_envUpdate : ((after (execEnvUpdate 0 0 16 128 32 State.reset Config.reference)).map fun t =>
    ([Segment.attack, .decay, .sustain, .release, .dead].map t.env[0].inc,
      [Segment.attack, .decay, .sustain, .release, .dead].map t.env[0].target)) =
    some ([0x40000000, 0x20000000, 0, 0x10000000, 0], [65535, 32896, 32896, 0, 0]) := by decide
/-- 40_env.md R133: a release starts from the value reached (vector E2). -/
theorem test_envTrigger : ((after (execEnvTrigger 0 3 (attackState.setEnv 0 { attackState.env[0] with value := 49151 }))).map fun t =>
    (t.env[0].seg, t.env[0].a, t.env[0].b, t.env[0].value)) = some (.release, 49151, 0, 49151) := by decide
/-- 40_env.md R134: the first render of vector E1. -/
theorem test_envRender : ((after (execEnvRender 0 attackState Config.reference)).map fun t => (t.env[0].value, t.env[0].phase)) =
    some (28671, 0x40000000) := by decide
/-- 40_env.md R134: the fourth render of vector E1 completes the attack and enters DECAY. -/
theorem test_envRender_completes :
    ((after (execEnvRender 0 (attackState.setEnv 0 { attackState.env[0] with phase := 0xC0000000, value := 61439 }) Config.reference)).map
      fun t => (t.env[0].value, t.env[0].seg, t.env[0].a, t.env[0].b)) = some (65535, .decay, 65535, 32896) := by decide
/-- 40_env.md R135, example. -/
theorem test_envGate : response .C (execEnvGate 0 State.reset) = some (0, false) ∧ response .C (execEnvGate 0 attackState) = some (1, false) := by
  decide
/-- 41_lfo.md R151. -/
theorem test_lfoInit : ((after (execLfoInit 1 (State.reset.setLfo 1 { State.reset.lfo[1] with cur := 5, inc := 7, shape := .noise }))).map
    fun t => (t.lfo[1].cur, t.lfo[1].inc, t.lfo[1].shape)) = some (0, 7, .noise) := by decide
/-- 41_lfo.md R152, example: shape 6 is LINES. -/
theorem test_lfoSetshape : ((after (execLfoSetshape 1 6 State.reset)).map fun t => t.lfo[1].shape) = some .lines := by decide
/-- 41_lfo.md R153. -/
theorem test_lfoSetinc : ((after (execLfoSetinc 0 0x10000000 State.reset)).map fun t => t.lfo[0].inc) = some 0x10000000 := by decide
/-- 41_lfo.md R154, example: the ninth render of the triangle. -/
theorem test_lfoRender_triangle :
    response .C (execLfoRender 0 (State.reset.setLfo 0 { State.reset.lfo[0] with phase := 0x80000000, inc := 0x10000000 })) =
      some (57343, false) := by decide
/-- 41_lfo.md R156, vector L1: LINES, render 11, from PREV 0, CUR 4660 with draw 0xABCD. -/
theorem test_lfoRender_lines :
    ((after (execLfoRender 0 { State.reset.setLfo 0
        { State.reset.lfo[0] with phase := 0xE0000000, inc := 0x30000000, shape := .lines, cur := 4660 } with
      rng := ⟨[0xABCD], 0⟩ })).map fun t => (t.lfo[0].value, t.lfo[0].cur, t.lfo[0].prev, t.rng.fixed)) =
      some (7117, 43981, 4660, []) := by decide
/-- 41_lfo.md R158, the first and the fourth example. -/
theorem test_lfoSync :
    ((after (execLfoSync 0 1 (State.reset.setLfo 0 { State.reset.lfo[0] with inc := 0x00800000, phase := 0x0A000000 })
      Config.reference)).map fun t => (t.lfo[0].inc, t.lfo[0].lastPh)) = some (0x00815555, 0x0A000000) ∧
    ((after (execLfoSync 0 0 (State.reset.setLfo 0 { State.reset.lfo[0] with inc := 0x2000, phase := 0x10000000 })
      Config.reference)).map fun t => t.lfo[0].inc) = some 0x1000 := by decide
/-- 42_clk.md R171. -/
theorem test_clkInit : ((after (execClkInit { State.reset with clk := { State.reset.clk with events := 3, res := 6 } })).map
    fun t => (t.clk.events, t.clk.res)) = some (0, 6) := by decide
/-- 42_clk.md R172, example: base 833 and DUR[0] = 937 at 120 BPM, amount 128. -/
theorem test_clkUpdate : ((after (execClkUpdate 120 0 128 State.reset Config.reference)).map
    fun t => (t.clk.base, t.clk.dur[0], t.clk.dur[1], t.ctl)) = some (833, 937, 1, .clkUpdate 1) := by decide
/-- 42_clk.md R172, example: DUR[1] = 728 in the second step, the sixteenth ends the command. -/
theorem test_clkUpdate_continues :
    ((State.reset.continueClkUpdate Config.reference 15).ctl, stepDuration Config.reference 0 128 833 1) = (.idle, 728) := by decide
/-- 42_clk.md R173. -/
theorem test_clkSetres : ((after (execClkSetres 6 State.reset)).map fun t => t.clk.res) = some 6 ∧
    ((after (execClkSetres 3 State.reset)).map fun t => t.sys.errCode) = some 2 := by decide
/-- 42_clk.md R175, vector K6: from reset one tick gives one event. -/
theorem test_clkTick : ((after (execClkTick State.reset)).map fun t => (t.clk.events, t.clk.cnt)) = some (1, 0) := by decide
/-- 42_clk.md R177: step A takes the events. -/
theorem test_clkCount : ((after (execClkCount { State.reset with clk := { State.reset.clk with events := 3 } })).map
    fun t => (t.clk.events, t.ctl)) = some (0, .clkCount 3) := by decide
/-- 42_clk.md R177, example: with RES = 2, three events give one clock event and leave PRE = 1, TICK6 = 3. -/
theorem test_clkCount_finishes :
    (let t := State.finishClkCount { State.reset with clk := { State.reset.clk with res := 2 } } 3
     (t.portC.response, t.clk.pre, t.clk.tick6, t.clk.gidx)) = (some ⟨1, false⟩, 1, 3, 0) := by decide
/-- 43_glide.md R191. -/
theorem test_gldInit : ((after (execGldInit voiceState)).map fun t => (t.gld.source, t.gld.inc)) = some (0, 0x4000) := by decide
/-- 43_glide.md R192. -/
theorem test_gldSetinc : ((after (execGldSetinc 0x6000 voiceState)).map fun t => t.gld.inc) = some 0x6000 := by decide
/-- 43_glide.md R193, vector G1: an interrupted glide starts from the pitch reached. -/
theorem test_gldStart : ((after (execGldStart 6144 true { State.reset with gld := ⟨7680, 8192, 0x8000, 0x4000, 0⟩ })).map
    fun t => (t.gld.source, t.gld.target, t.gld.counter)) = some (7936, 6144, 0) := by decide
/-- 43_glide.md R195, vector G1: a render inside a glide, and the one that completes it. -/
theorem test_gldRender : response .C (execGldRender { State.reset with gld := ⟨7680, 8192, 0, 0x4000, 0⟩ }) = some (7808, false) ∧
    response .C (execGldRender { State.reset with gld := ⟨7936, 6144, 0xC000, 0x4000, 0⟩ }) = some (6144, false) := by decide
/-- 44_cvdac.md R201: the waiting samples are discarded. -/
theorem test_cvdInit : ((after (execCvdInit ringState)).map fun t => t.cvd.readable) = some 0 := by decide
/-- 44_cvdac.md R202, example. -/
theorem test_cvdSetcal : ((after (execCvdSetcal 8738 9000 (-100) State.reset)).map
    fun t => (t.cvd.scaleLow, t.cvd.scaleHigh, t.cvd.offset.toInt)) = some (8738, 9000, -100) := by decide
/-- 44_cvdac.md R204, example. -/
theorem test_cvdSetin : ((after (execCvdSetin 3 0xFFFFFFF9 State.reset)).map fun t => t.cvd.input.vca.toInt) = some (-7) := by decide
/-- 44_cvdac.md R206, example: SETCAL 8738, 8738, 0 and IN = [7680, 100, 5000, -7]. -/
theorem test_cvdWrite :
    ((after (execCvdWrite { voiceState with cvd := { voiceState.cvd with input := ⟨7680, 100, 5000, -7⟩ } } Config.reference)).map
      fun t => (t.cvd.slot[0], t.cvd.wptr)) = some (⟨819, 100, 4095, 0⟩, 1) := by decide
/-- 44_cvdac.md R206: the ring full. -/
theorem test_cvdWrite_full :
    ((after (execCvdWrite { State.reset with cvd := { State.reset.cvd with wptr := 3 } } Config.reference)).map
      fun t => (t.sys.err, t.sys.errCode, t.cvd.wptr)) = some (true, 5, 3) := by decide
/-- 44_cvdac.md R208: the oldest sample, at slot 3, and then the wrap of RPTR. -/
theorem test_cvdRead : response .T (execCvdRead ringState) = some (0x004003002001, false) ∧
    ((after (execCvdRead ringState)).map fun t => (t.cvd.rptr, t.sys.underrun)) = some (0, false) := by decide
/-- 44_cvdac.md R208: an empty ring sets UNDERRUN and keeps the output. -/
theorem test_cvdRead_underrun : ((after (execCvdRead State.reset)).map fun t => (t.sys.status, t.cvd.rptr)) = some (2, 0) := by decide
/-- 44_cvdac.md R209, R210: after reset 0 and 3; with two samples waiting 2 and 1. -/
theorem test_cvdReadable : response .C (execCvdReadable State.reset) = some (0, false) ∧
    response .C (execCvdReadable ringState) = some (2, false) := by decide
theorem test_cvdWritable : response .C (execCvdWritable State.reset) = some (3, false) ∧
    response .C (execCvdWritable ringState) = some (1, false) := by decide
/-- 44_cvdac.md R212, example: the next read gives the override. -/
theorem test_cvdLock : (((after (execCvdLock 2048 0 4095 1 ringState)).map execCvdRead).bind (response .T)) =
    some (0x001FFF000800, false) := by decide
/-- 44_cvdac.md R213. -/
theorem test_cvdUnlock : ((after (execCvdUnlock { State.reset with cvd := { State.reset.cvd with locked := true } })).map
    fun t => t.cvd.locked) = some false := by decide
/-- 45_voice.md R220. -/
theorem test_voxInit : ((after (execVoxInit voiceState)).map fun t => (t.vox.velocity, t.vox.accent, t.vox.ctx[1])) =
    some (0, false, 100) := by decide
/-- 45_voice.md R221, vector X2: RETRIG stays 0 from DEAD and is raised from ATTACK. -/
theorem test_voxGateOn : ((after (execVoxGateOn State.reset)).map fun t => (t.vox.retrig, t.env[2].seg)) = some (false, .attack) ∧
    ((after (execVoxGateOn voiceState)).map fun t => t.vox.retrig) = some true := by decide
/-- 45_voice.md R222. -/
theorem test_voxGateOff : ((after (execVoxGateOff voiceState)).map fun t =>
    (t.env[0].seg, t.env[1].seg, t.env[2].seg)) = some (.release, .release, .release) := by decide
/-- 45_voice.md R224, vector X1: velocity 100 with the accent's 32 is capped at 127; the first note snaps. -/
theorem test_voxNoteOn : ((after (execVoxNoteOn 60 100 false true false State.reset Config.reference)).map
    fun t => (t.gld.source, t.gld.target, t.vox.velocity, t.vox.accent, t.env[0].seg)) = some (7680, 7680, 127, true, .attack) := by decide
/-- 45_voice.md R224: a legato note leaves the envelopes and glides. -/
theorem test_voxNoteOn_legato : ((after (execVoxNoteOn 64 80 false false true voiceState Config.reference)).map
    fun t => (t.gld.source, t.gld.target, t.vox.velocity, t.vox.retrig)) = some (7680, 8192, 80, false) := by decide
/-- 45_voice.md R228, example: the first sample of VOXSETUP with NOTE_ON 60, 100, 0, 1, 0. -/
theorem test_voxSample : response .C (execVoxSample voiceState Config.reference) = some (0x6F183447F2EE, false) := by decide
/-- 45_voice.md R229: the first turn writes one sample; on a full ring the command ends with 0. -/
theorem test_voxRefresh : ((after (execVoxRefresh voiceState Config.reference)).map fun t => (t.ctl, t.cvd.wptr)) =
      some (.voxRefresh 1, 1) ∧
    response .C (execVoxRefresh { State.reset with cvd := { State.reset.cvd with wptr := 3 } } Config.reference) = some (0, false) := by
  decide
/-- 45_voice.md R230. -/
theorem test_voxSetctx : ((after (execVoxSetctx 31 255 State.reset)).map fun t => (t.vox.ctx[31], t.vox.ctx[30])) = some (255, 0) := by decide
/-- 45_voice.md R232. -/
theorem test_voxSetlegato : ((after (execVoxSetlegato true State.reset)).map fun t => t.vox.legatoMode) = some true := by decide
/-- 45_voice.md R231. -/
theorem test_voxRdretrig : response .C (execVoxRdretrig { State.reset with vox := { State.reset.vox with retrig := true } }) =
    some (1, false) := by decide

/-- 60_exceptions.md R274: ENV.TRIGGER with IDX 5 and seg 7 reports code 2, on port C; ERRCODE keeps the first code. -/
theorem test_first_code_is_kept :
    ((after (issue .C 0x1250000000000007 State.reset)).map fun t => t.sys.errCode) = some 2 ∧
    ((after (issue .C 0xF000000000000000 { State.reset with sys := ⟨true, false, 2⟩ })).map fun t => t.sys.errCode) = some 2 := by decide

/-- 60_exceptions.md R276: with a command waiting on both ports and no interleaving given, port T is first. -/
theorem test_port_priority : ((State.reset.setPort .C ⟨[0], 0, none⟩).setPort .T ⟨[0x3300000000000000], 0, none⟩).activePort = .T := by
  decide

/-- A step from a fetched word: SYS.NOP is taken and answered, its index counted. -/
theorem test_step : ((after (step (State.reset.withFetchWord 64 0))).map fun t => (t.portC.index, t.portC.response, t.schedule)) =
    some (1, some ⟨0, false⟩, []) := by decide

/-! ## Witnesses: for each statement with hypotheses, a state and operands that meet them, with each clause at a boundary -/

/-- A word waiting first on port `p`, whose turn is next. -/
def ready (s : State) (p : Port) (w : CommandWord) : State :=
  { s.setPort p ⟨[w], 0, none⟩ with schedule := [p] }

/-- FirstFailingCheckGivesTheRejectCode: a word for each check; the ring full for the last. -/
theorem witness_FirstFailingCheckGivesTheRejectCode :
    opcOf 0x6900000000000000 ∉ opcodes ∧
    (opcOf 0x3300000000000000 ∈ opcodes ∧ ¬ (Port.C = .T ↔ tickOpcode (opcOf 0x3300000000000000))) ∧
    (opcOf 0 ∈ opcodes ∧ ¬ (Port.T = .T ↔ tickOpcode (opcOf 0))) ∧
    (opcOf 0x3300000000000001 ∈ opcodes ∧ (Port.T = .T ↔ tickOpcode (opcOf 0x3300000000000001))) ∧
    (encode (.envTrigger 2 5) = 0x1220000000000005 ∧ (Port.C = .T ↔ tickOpcode (opcOf 0x1220000000000005)) ∧
      ¬ InRange config (.envTrigger 2 5)) ∧
    (encode .cvdWrite = 0x5300000000000000 ∧ ((3 : BitVec 2) - 2 - 1 : BitVec 2) = 0) := by
  refine ⟨by decide, ⟨by decide, by unfold tickOpcode; decide⟩, ⟨by decide, by unfold tickOpcode; decide⟩,
    ⟨by decide, by unfold tickOpcode; decide⟩, ⟨by decide, by unfold tickOpcode; decide, ?_⟩, by decide, by decide⟩
  intro h
  exact absurd h.2 (by decide)

/-- The third check of that statement: no command has this word, whose ARG bit 0 is set. -/
theorem witness_FirstFailingCheck_mustBeZero : decode 0x3300000000000001 = .error .nonzeroReserved := by decide

/-- StepRunsTheDecodedCommand, which port takes the step: named by the interleaving; or port T with a word waiting there, port C else. -/
theorem witness_StepRunsTheDecodedCommand_port :
    ({ State.reset with schedule := [.T, .C] } : State).activePort = .T ∧
    ({ State.reset with portT := ⟨[0], 0, none⟩ } : State).activePort = .T ∧ State.reset.activePort = .C := by decide

/-- StepRunsTheDecodedCommand, a command in progress on port C: the last entry of a CLK.UPDATE, with a word waiting behind it. -/
theorem witness_StepRunsTheDecodedCommand_continues :
    (let s : State := { ready State.reset .C 0 with ctl := .clkUpdate 15 }
     s.activePort = .C ∧ s.ctl ≠ .idle ∧ s.coming = none) := by decide

/-- StepRunsTheDecodedCommand, on either port. -/
theorem witness_StepRunsTheDecodedCommand :
    (ready State.reset .C 0).coming = some (.C, 0) ∧ decodeOn .C 0 = .ok .sysNop ∧
    (ready State.reset .T 0x5400000000000000).coming = some (.T, 0x5400000000000000) ∧
    decodeOn .T 0x5400000000000000 = .ok .cvdRead := by decide

/-- StepRejectsAnIllegalWord, on either port. -/
theorem witness_StepRejectsAnIllegalWord :
    (ready State.reset .C 0x3300000000000000).coming = some (.C, 0x3300000000000000) ∧
    decodeOn .C 0x3300000000000000 = .error .wrongPort ∧
    (ready State.reset .T 0).coming = some (.T, 0) ∧ decodeOn .T 0 = .error .wrongPort := by decide

/-- EveryStepAnswersNextAndIdleTurnsHold: the reset state; and port T with its turn while port C is busy. -/
theorem witness_EveryStepAnswersNextAndIdleTurnsHold :
    (State.reset.activePort = .C ∧ State.reset.ctl = .idle ∧ State.reset.coming = none) ∧
    (let s : State := { State.reset with ctl := .clkUpdate 15, schedule := [.T] }
     s.activePort = .T ∧ s.coming = none) := by decide

/-- CommandIndexAdvancesOncePerWord and NoCommandReadsAResponse: a step that takes a word, and one that takes none. -/
theorem witness_CommandIndexAdvancesOncePerWord :
    (∃ t, step (ready State.reset .C 0) = .next t ∧ (ready State.reset .C 0).coming = some (.C, 0)) ∧
    (∃ t, step State.reset = .next t ∧ State.reset.coming = none) := ⟨⟨_, rfl, by decide⟩, _, rfl, by decide⟩

/-- ErrorAndUnderrunAreSticky: an error and an underrun set before the step, and an underrun set by it. -/
theorem witness_ErrorAndUnderrunAreSticky :
    (∃ t, step { ready State.reset .C 0 with sys := ⟨true, true, 5⟩ } = .next t ∧ t.sys = ⟨true, true, 5⟩) ∧
    (∃ t, step (ready State.reset .T 0x5400000000000000) = .next t ∧ (State.reset.sys.underrun, t.sys.underrun) = (false, true)) ∧
    ¬ (ready State.reset .T 0x5400000000000000).Performs .sysReset := by
  refine ⟨⟨_, rfl, by decide⟩, ⟨_, rfl, by decide⟩, ?_⟩
  rintro ⟨p, w, h, hd⟩
  have hc : (ready State.reset .T 0x5400000000000000).coming = some (.T, 0x5400000000000000) := by decide
  rw [hc] at h
  cases h
  exact absurd hd (by decide)

/-- PortTTouchesOnlyTheTickState and EachRingIndexHasOneWriter: a step of port T, and one of port C that is no CVD.INIT or SYS.RESET. -/
theorem witness_PortTTouchesOnlyTheTickState :
    (∃ t, step (ready State.reset .T 0x3300000000000000) = .next t ∧ (ready State.reset .T 0x3300000000000000).activePort = .T) ∧
    (∃ t, step (ready State.reset .C 0) = .next t ∧ (ready State.reset .C 0).activePort = .C) :=
  ⟨⟨_, rfl, by decide⟩, _, rfl, by decide⟩

/-- OnlyLfoRendersDraw: LFO.RENDER of a NOISE shape takes the one fixed draw. -/
theorem witness_OnlyLfoRendersDraw :
    (let s : State := { (ready State.reset .C 0x2300000000000000).setLfo 0 { State.reset.lfo[0] with shape := .noise } with
      rng := ⟨[7], 0⟩ }
     ((after (step s)).map fun t => (s.rng, t.rng))) = some (⟨[7], 0⟩, ⟨[], 0⟩) := by decide

/-- EventsChangeOnlyByTickCountAndReset: a tick that adds an event, a count and an init that remove them. -/
theorem witness_EventsChangeOnlyByTickCountAndReset :
    (let e (w : CommandWord) (p : Port) (n : BitVec 8) : Option (BitVec 8) :=
      (after (step { ready State.reset p w with clk := { State.reset.clk with events := n } })).map fun t => t.clk.events
     [e 0x3300000000000000 .T 0, e 0x3400000000000000 .C 3, e 0x3000000000000000 .C 3, e 0x0100000000000000 .C 3]) =
      [some 1, some 0, some 0, some 0] := by decide

/-- TickAndReadCommute. -/
theorem witness_TickAndReadCommute : ∃ a b c d, exec .clkTick ringState = .next a ∧ exec .cvdRead a = .next b ∧
    exec .cvdRead ringState = .next c ∧ exec .clkTick c = .next d := ⟨_, _, _, _, rfl, rfl, rfl, rfl⟩

/-- NopAndReadOutChangeNoRegister: no register has the address 0x7000. -/
theorem witness_NopAndReadOutChangeNoRegister : ∀ r, addrOf r ≠ (0x7000 : BitVec 16).toNat := by
  intro r
  have he : nEnv = 3 := rfl
  have hl : nLfo = 2 := rfl
  cases r with
  | envInc e g => have := e.isLt; cases g <;> simp [addrOf, Segment.code] <;> omega
  | envTarget e g => have := e.isLt; cases g <;> simp [addrOf, Segment.code] <;> omega
  | _ => simp only [addrOf, BitVec.reduceToNat]; omega

/-- The envelope and the LFO statements: the last instance of each. -/
theorem witness_instances : (2 : BitVec 4).toNat < nEnv ∧ (0 : BitVec 4).toNat < nEnv ∧ (1 : BitVec 4).toNat < nLfo := by decide

/-- EnvGateReportsTheSegment: the first instance that does not exist, a word with one bit of `ARG` set, and the two triggers. -/
theorem witness_EnvGateReportsTheSegment :
    nEnv ≤ (3 : BitVec 4).toNat ∧
    (opcOf 0x1400000000000001 = 0x14 ∧ (0x1400000000000001 : CommandWord).extractLsb' 0 48 ≠ 0) ∧
    ∃ t u, exec (.envTrigger 0 0) State.reset = .next t ∧ exec (.envTrigger 0 3) t = .next u :=
  ⟨by decide, by decide, _, _, rfl, rfl⟩

/-- GateOffReleasesAllEnvelopes: a word with a bit of `IDX` and one with a bit of `ARG` set; a DEAD envelope; the attack of the example. -/
theorem witness_GateOffReleasesAllEnvelopes :
    (opcOf 0x6210000000000000 = 0x62 ∧ idxOf 0x6210000000000000 ≠ 0) ∧
    (opcOf 0x6200000000000001 = 0x62 ∧ (0x6200000000000001 : CommandWord).extractLsb' 0 48 ≠ 0) ∧
    (∃ e : Env, e.Legal ∧ e.seg = .dead ∧ e.incRelease ≠ 0) ∧ attackState.env[0].incAttack = 0x40000000 := by
  refine ⟨by decide, by decide, ⟨⟨.dead, 0, 0, 0, 0, 0, 0, 1, 0⟩, ⟨?_, ?_, ?_, ?_, ?_⟩, rfl, ?_⟩, by decide⟩ <;> decide

/-- EnvRenderAdvancesOrCompletes: the two clauses meet between these phases. -/
theorem witness_EnvRenderAdvancesOrCompletes :
    (let x : Env := { attackState.env[0] with phase := 0xBFFFFFFF }
     x.phase.toNat + (x.inc x.seg).toNat < 2 ^ 32) ∧
    (let x : Env := { attackState.env[0] with phase := 0xC0000000 }
     2 ^ 32 ≤ x.phase.toNat + (x.inc x.seg).toNat) := by decide

/-- EnvSegmentCompletionCount: an increment that is not 0, with calls before the completing one. -/
theorem witness_EnvSegmentCompletionCount :
    attackState.env[0].inc .attack ≠ 0 ∧ 1 ≤ 3 ∧ 3 < ceilDiv (2 ^ 32) (attackState.env[0].inc .attack).toNat := by decide

/-- EnvMovesMonotonicallyToItsTarget: upward and downward, up to the last call before completion. -/
theorem witness_EnvMovesMonotonicallyToItsTarget :
    3 * (attackState.env[0].inc .attack).toNat < 2 ^ 32 ∧
    (attackState.env[0].trigger .attack).a ≤ (attackState.env[0].trigger .attack).b ∧
    15 * (attackState.env[0].inc .release).toNat < 2 ^ 32 ∧
    (attackState.env[0].trigger .release).b ≤ (attackState.env[0].trigger .release).a := by decide

/-- HoldingSegmentsDoNotMove: the DEAD envelope of the reset state, and a SUSTAIN one. -/
theorem witness_HoldingSegmentsDoNotMove :
    (State.reset.env[0].Legal ∧ State.reset.env[0].seg = .dead) ∧
    (∃ x : Env, x.Legal ∧ x.seg = .sustain ∧ x.value = 9) := by
  refine ⟨⟨⟨?_, ?_, ?_, ?_, ?_⟩, by decide⟩, ⟨.sustain, 0, 9, 9, 32896, 1, 1, 1, 32896⟩, ⟨?_, ?_, ?_, ?_, ?_⟩, rfl, rfl⟩ <;> decide

/-- MixStaysBetweenItsEnds: both orders of the ends, and of the fractions. -/
theorem witness_MixStaysBetweenItsEnds : (0 : BitVec 16) ≤ 65535 ∧ (65535 : BitVec 16) ≤ 65535 ∧ (0 : BitVec 16) ≤ 0 := by decide

/-- LfoRenderOfArithmeticShapes and LfoRenderOfRandomShapes: an LFO of each shape. -/
theorem witness_LfoRender_shapes : ∀ sh : Shape, ∃ s : State, s.lfo[(1 : BitVec 4).toNat].shape = sh :=
  fun sh => ⟨State.reset.setLfo 1 { State.reset.lfo[1] with shape := sh }, by cases sh <;> decide⟩

/-- LfoPhaseAdvancesOncePerRender: the increment 0 with a shape other than NOISE. -/
theorem witness_LfoPhaseAdvancesOncePerRender : State.reset.lfo[0].inc = 0 ∧ State.reset.lfo[0].shape ≠ .noise := by decide

/-- ClkInitAndSetRes: the three resolutions. -/
theorem witness_ClkInitAndSetRes : ∀ res ∈ [(1 : BitVec 8), 2, 6], res = 1 ∨ res = 2 ∨ res = 6 := by decide

/-- ClkUpdateRewritesTheTableEntryByEntry: template 0 exists in every configuration; the tempo at both ends. -/
theorem witness_ClkUpdateRewritesTheTableEntryByEntry :
    (1 : BitVec 8) ≠ 0 ∧ (255 : BitVec 8) ≠ 0 ∧ (0 : BitVec 8).toNat < config.nGroove :=
  ⟨by decide, by decide, config.nGroove_range.1⟩

/-- ClkTickCountsToTheStepDuration: the duration reached exactly, and one more than the count. -/
theorem witness_ClkTickCountsToTheStepDuration :
    State.reset.clk.dur[State.reset.clk.gidx.toNat].toNat ≤ (State.reset.clk.cnt.toNat + 1) % 2 ^ 16 ∧
    (let s : State := { State.reset with clk := { State.reset.clk with dur := Vector.replicate 16 2 } }
     (s.clk.cnt.toNat + 1) % 2 ^ 16 < s.clk.dur[s.clk.gidx.toNat].toNat) := by decide

/-- EveryDthTickIsAnEvent: the shortest duration. -/
theorem witness_EveryDthTickIsAnEvent :
    1 ≤ State.reset.clk.dur[State.reset.clk.gidx.toNat].toNat ∧ State.reset.clk.cnt = 0 := by decide

/-- ClkCountDrainsTheEvents: the counters at their highest values. -/
theorem witness_ClkCountDrainsTheEvents :
    (let s : State := { State.reset with clk := { State.reset.clk with tick6 := 5, pre := 5, res := 6 }, ctl := .clkCount 255 }
     s.ctl = .clkCount 255 ∧ s.clk.tick6.toNat ≤ 5 ∧ s.clk.pre.toNat < s.clk.res.toNat ∧ s.clk.res.toNat ≤ 6) := by decide

/-- ClkInitAndSetRes, the stale prescaler: a count equal to the new resolution, and the highest one. -/
theorem witness_ClkInitAndSetRes_stale :
    (let c : Clk := { State.reset.clk with pre := 1 }
     c.res.toNat ≤ c.pre.toNat ∧ c.pre.toNat ≤ 5) ∧
    (let c : Clk := { State.reset.clk with pre := 5 }
     c.res.toNat ≤ c.pre.toNat ∧ c.pre.toNat ≤ 5) := by decide

/-- TickInsideCountIsKept. -/
theorem witness_TickInsideCountIsKept : ∃ t u, exec .clkCount State.reset = .next t ∧ exec .clkTick t = .next u := ⟨_, _, rfl, rfl⟩

/-- TempoIsTheRoundedBaseDuration: REFCFG, and configurations at both ends of the range. -/
theorem witness_TempoIsTheRoundedBaseDuration :
    (240 ≤ Config.reference.tempoFactor ∧ Config.reference.tempoFactor ≤ 480 * 65535) ∧
    (let cfg : Config := { tempoFactor := 240, tickRateNum := 24 }
     240 ≤ cfg.tempoFactor ∧ cfg.tempoFactor ≤ 480 * 65535) ∧
    (let cfg : Config := { tempoFactor := 31456800, tickRateNum := 3145680 }
     240 ≤ cfg.tempoFactor ∧ cfg.tempoFactor ≤ 480 * 65535) := by decide

/-- GldCommands: a snap for each of its three reasons, a glide, and the two clauses of a render where they meet. -/
theorem witness_GldCommands :
    (State.reset.gld.source = 0 ∧ (⟨5, 5, 0, 0, 0⟩ : Gld).inc = 0) ∧
    ((⟨5, 5, 0, 1, 0⟩ : Gld).source ≠ 0 ∧ (⟨5, 5, 0, 1, 0⟩ : Gld).inc ≠ 0) ∧
    (let g : Gld := ⟨5, 5, 0xBFFF, 0x4000, 0⟩
     g.counter.toNat + g.inc.toNat < 2 ^ 16) ∧
    (let g : Gld := ⟨5, 5, 0xC000, 0x4000, 0⟩
     2 ^ 16 ≤ g.counter.toNat + g.inc.toNat) := by decide

/-- GlideCompletionCount: the slowest glide. -/
theorem witness_GlideCompletionCount :
    (let g : Gld := ⟨5, 6, 0, 1, 0⟩
     g.inc ≠ 0 ∧ g.counter = 0 ∧ 1 ≤ 65535 ∧ 65535 < ceilDiv 65536 g.inc.toNat) := by decide

/-- FirstNoteNeverGlides. -/
theorem witness_FirstNoteNeverGlides : State.reset.gld.source = 0 := by decide

/-- CvdWriteStoresTheClippedSample and SampleRendersEverySourceOnce: one slot left, and none. -/
theorem witness_CvdWriteStoresTheClippedSample :
    (let c : Cvd := { State.reset.cvd with wptr := 2 }
     c.wptr + 1 ≠ c.rptr) ∧
    (let c : Cvd := { State.reset.cvd with wptr := 3 }
     c.wptr + 1 = c.rptr) := by decide

/-- CvdReadOutputsTheOldestSample: locked; one sample waiting; none. -/
theorem witness_CvdReadOutputsTheOldestSample :
    (let c : Cvd := { State.reset.cvd with locked := true }
     c.locked = true) ∧
    (let c : Cvd := { State.reset.cvd with wptr := 1 }
     c.locked = false ∧ c.wptr ≠ c.rptr) ∧
    (State.reset.cvd.locked = false ∧ State.reset.cvd.wptr = State.reset.cvd.rptr) := by decide

/-- CvsSaturateAndThePitchIsMonotone: both ends of the range. -/
theorem witness_CvsSaturateAndThePitchIsMonotone : (4095 : Int) ≤ 4095 ∧ (0 : Int) ≤ 0 ∧ (0 : Int) ≤ 4095 := by decide

/-- RingIsABoundedQueue: a read from the ring at the wrap of its index. -/
theorem witness_RingIsABoundedQueue : ∃ t, step (ready ringState .T 0x5400000000000000) = .next t := ⟨_, rfl⟩

/-- ReadInsideRefreshFreesASlot: a full ring inside a refresh. -/
theorem witness_ReadInsideRefreshFreesASlot :
    ∃ s t : State, s.ctl = .voxRefresh 3 ∧ s.cvd.locked = false ∧ s.cvd.wptr ≠ s.cvd.rptr ∧ exec .cvdRead s = .next t :=
  ⟨{ voiceState with cvd := { voiceState.cvd with wptr := 3 }, ctl := .voxRefresh 3 }, _, by decide, by decide, by decide, rfl⟩

/-- The reset state meets PowerOn. -/
theorem witness_PowerOn : State.reset.PowerOn config := by
  refine ⟨rfl, ?_, ?_, rfl, ⟨by decide, config.nGroove_range.1, by decide, by decide, by decide, by decide⟩, rfl, rfl, rfl, rfl,
    ⟨rfl, rfl⟩, rfl, rfl⟩ <;> decide

/-- StepKeepsTheInvariants: a legal state whose step takes a command. -/
theorem witness_StepKeepsTheInvariants :
    (ready State.reset .C 0).Legal config ∧ ∃ t, step (ready State.reset .C 0) = .next t := by
  refine ⟨⟨?_, ⟨by decide, config.nGroove_range.1, by decide, by decide, by decide, by decide⟩, ⟨by decide, by decide⟩, trivial⟩, _, rfl⟩
  intro e
  have h : (ready State.reset .C 0).env[e] = ⟨.dead, 0, 0, 0, 0, 0, 0, 0, 0⟩ := by revert e; decide
  rw [h]
  exact ⟨by decide, by decide, by decide, by decide, by decide⟩

end Sys2Proof.Tests
end

section
/-! PROOFS. The statements of 30_encoding.md: which word is which command, and the five checks of R108 in their order. -/

namespace Sys2Proof.Proofs.Encoding

open Sys2Proof Sys2Proof.Machine Sys2Proof.Claims Sys2Proof.Laws

/-! ## Every command's word is read back -/

/-- The laws of Laws/PerInstr.lean put together: the word of every command belongs to one row, which reads the command back. -/
theorem encodedWord : ∀ i, EncodedWord.Statement i
  | .sysNop => EncodedWord.sysNop
  | .sysReset => EncodedWord.sysReset
  | .sysRdreg a => EncodedWord.sysRdreg a
  | .envInit e => EncodedWord.envInit e
  | .envUpdate e a d s r => EncodedWord.envUpdate e a d s r
  | .envTrigger e g => EncodedWord.envTrigger e g
  | .envRender e => EncodedWord.envRender e
  | .envGate e => EncodedWord.envGate e
  | .lfoInit l => EncodedWord.lfoInit l
  | .lfoSetshape l x => EncodedWord.lfoSetshape l x
  | .lfoSetinc l x => EncodedWord.lfoSetinc l x
  | .lfoRender l => EncodedWord.lfoRender l
  | .lfoSync l x => EncodedWord.lfoSync l x
  | .clkInit => EncodedWord.clkInit
  | .clkUpdate b t a => EncodedWord.clkUpdate b t a
  | .clkSetres x => EncodedWord.clkSetres x
  | .clkTick => EncodedWord.clkTick
  | .clkCount => EncodedWord.clkCount
  | .gldInit => EncodedWord.gldInit
  | .gldSetinc x => EncodedWord.gldSetinc x
  | .gldStart t g => EncodedWord.gldStart t g
  | .gldRender => EncodedWord.gldRender
  | .cvdInit => EncodedWord.cvdInit
  | .cvdSetcal l h o => EncodedWord.cvdSetcal l h o
  | .cvdSetin c v => EncodedWord.cvdSetin c v
  | .cvdWrite => EncodedWord.cvdWrite
  | .cvdRead => EncodedWord.cvdRead
  | .cvdReadable => EncodedWord.cvdReadable
  | .cvdWritable => EncodedWord.cvdWritable
  | .cvdLock a b c d => EncodedWord.cvdLock a b c d
  | .cvdUnlock => EncodedWord.cvdUnlock
  | .voxInit => EncodedWord.voxInit
  | .voxGateOn => EncodedWord.voxGateOn
  | .voxGateOff => EncodedWord.voxGateOff
  | .voxNoteOn n v s a l => EncodedWord.voxNoteOn n v s a l
  | .voxSample => EncodedWord.voxSample
  | .voxRefresh => EncodedWord.voxRefresh
  | .voxSetctx o v => EncodedWord.voxSetctx o v
  | .voxSetlegato f => EncodedWord.voxSetlegato f
  | .voxRdretrig => EncodedWord.voxRdretrig

/-- The word of a command decodes to it on its port. -/
theorem decodeOn_of_encode {i : Instr} {w : CommandWord} {p : Port} (hw : encode i = w) (hp : i.port = p) :
    decodeOn p w = .ok i := by
  subst hw hp
  obtain ⟨r, hrow, hport, hmask, hcut⟩ := encodedWord i
  simp only [decodeOn, hrow, hport, Row.read, hmask, hcut, if_true]

/-! ## The opcode map -/

/-- The rows of the map have the opcodes of R105, in order. -/
theorem opcodeMap_map_opc : opcodeMap.map Row.opc = opcodes := by decide

/-- Port T takes the rows of the two tick opcodes, and no other (R103). -/
theorem row_port_eq_T_iff : ∀ r ∈ opcodeMap, (r.port = .T ↔ tickOpcode r.opc) := by
  unfold tickOpcode; decide

theorem rowOf_mem {w : CommandWord} {r : Row} (h : rowOf w = some r) : r ∈ opcodeMap := List.mem_of_find?_eq_some h

theorem rowOf_opc {w : CommandWord} {r : Row} (h : rowOf w = some r) : r.opc = opcOf w :=
  eq_of_beq (List.find?_some (p := fun r : Row => r.opc == opcOf w) h)

/-- A word has a row exactly when its opcode is one of the forty (R102). -/
theorem rowOf_eq_none_iff (w : CommandWord) : rowOf w = none ↔ opcOf w ∉ opcodes := by
  rw [rowOf, List.find?_eq_none, ← opcodeMap_map_opc]
  simp

/-- The port of a word's row, told from the opcode alone. -/
theorem rowOf_port_eq_iff {w : CommandWord} {r : Row} (h : rowOf w = some r) (p : Port) :
    r.port = p ↔ (p = .T ↔ tickOpcode (opcOf w)) := by
  rw [← rowOf_opc h, ← row_port_eq_T_iff r (rowOf_mem h)]
  cases p <;> cases r.port <;> simp

/-- The port that passes check 2 with the word of a command is the port of the command. -/
theorem port_eq_of_encode {i : Instr} {w : CommandWord} {p : Port} (hw : encode i = w) (hp : p = .T ↔ tickOpcode (opcOf w)) :
    i.port = p := by
  obtain ⟨r, hrow, hport, -, -⟩ := encodedWord i
  rw [← hport]
  exact (rowOf_port_eq_iff (hw ▸ hrow) p).2 hp

/-! ## A word that passes its row's mask is the word of the command cut from it -/

/-- Where the mask is all ones, a word that passes it holds the pattern's bits. -/
theorem extractLsb'_of_masked {w m p : CommandWord} (h : w &&& m = p) {lo len : Nat}
    (hm : m.extractLsb' lo len = BitVec.allOnes len) : w.extractLsb' lo len = p.extractLsb' lo len := by
  rw [← h, BitVec.extractLsb'_and, hm, BitVec.and_allOnes]

/-- Two neighbouring fields of `ARG` are one field. -/
theorem argOf_append_argOf (w : CommandWord) {lo len lo' len' : Nat} (h : lo' = lo + len) :
    argOf w lo' len' ++ argOf w lo len = argOf w lo (len' + len) :=
  BitVec.extractLsb'_append_extractLsb'_eq_extractLsb' h

theorem ofBool_argFlag (w : CommandWord) (k : Nat) : BitVec.ofBool (argFlag w k) = argOf w k 1 := by
  ext j hj
  obtain rfl : j = 0 := by omega
  simp [argOf, argFlag]

/-- What a row must give for its words to be read back: a word that passes the mask has the `IDX` and the `ARG` of the command cut
from it, and the command has the row's opcode. -/
def ReadsBack (r : Row) : Prop :=
  ∀ w, w &&& r.mask = r.pattern → (r.cut w).opc = r.opc ∧ (r.cut w).idx = idxOf w ∧ (r.cut w).arg = argOf w 0 48

/-- A must-be-zero field of `ARG`, in a word that passes the mask. -/
theorem argOf_eq_zero {w m p : CommandWord} (h : w &&& m = p) {lo len : Nat}
    (hm : m.extractLsb' lo len = BitVec.allOnes len) (hp : p.extractLsb' lo len = 0#len) : argOf w lo len = 0#len :=
  (extractLsb'_of_masked h hm).trans hp

/-- A must-be-zero `IDX`, in a word that passes the mask. -/
theorem zero_eq_idxOf {w m p : CommandWord} (h : w &&& m = p)
    (hm : idxOf m = BitVec.allOnes 4) (hp : idxOf p = 0) : 0 = idxOf w :=
  ((extractLsb'_of_masked h hm).trans hp).symm

/-- A row without operands reads its one word back. -/
theorem readsBack_fixed {p : CommandWord} {t : Port} {i : Instr} (h : encode i = p) :
    ReadsBack ⟨p, 0xFFFFFFFFFFFFFFFF, t, fun _ => i⟩ := by
  intro w hw
  have hwp : w = p := BitVec.and_allOnes.symm.trans hw
  subst hwp h
  refine ⟨(opcOf_wordOf _ _ _).symm, (idxOf_wordOf _ _ _).symm, ?_⟩
  rw [encode, argOf_wordOf _ _ _ _ _ (by decide)]
  exact BitVec.extractLsb'_eq_self.symm

/-- A row whose one operand stands in `IDX` reads its words back. -/
theorem readsBack_idxOnly {p : CommandWord} {t : Port} {c : BitVec 4 → Instr} (hopc : ∀ e, (c e).opc = opcOf p)
    (hidx : ∀ e, (c e).idx = e) (harg : ∀ e, (c e).arg = 0) (hp : argOf p 0 48 = 0) :
    ReadsBack ⟨p, 0xFF0FFFFFFFFFFFFF, t, fun w => c (idxOf w)⟩ := fun w hw =>
  ⟨hopc _, hidx _, (harg _).trans (argOf_eq_zero (m := 0xFF0FFFFFFFFFFFFF) hw (by decide) hp).symm⟩

/-- One operand at the low end of `ARG`, must-be-zero bits above it. -/
theorem zero_append_argOf {w m p : CommandWord} (h : w &&& m = p) {lo len : Nat}
    (hm : m.extractLsb' lo len = BitVec.allOnes len) (hp : p.extractLsb' lo len = 0#len) :
    0#len ++ argOf w 0 lo = argOf w 0 (len + lo) := by
  rw [← argOf_eq_zero h hm hp, argOf_append_argOf _ (Nat.zero_add _).symm]

theorem sysRows_readBack : ∀ r ∈ sysRows, ReadsBack r := by
  simp only [sysRows, List.forall_mem_cons]
  refine ⟨readsBack_fixed (by decide), readsBack_fixed (by decide), ?rdreg, List.forall_mem_nil _⟩
  case rdreg =>
    exact fun w h => ⟨rfl, zero_eq_idxOf h (by decide) (by decide), zero_append_argOf h (by decide) (by decide)⟩

theorem envRows_readBack : ∀ r ∈ envRows, ReadsBack r := by
  simp only [envRows, List.forall_mem_cons]
  refine ⟨?init, ?update, ?trigger, ?render, ?gate, List.forall_mem_nil _⟩
  case init | render | gate => exact readsBack_idxOnly (fun _ => rfl) (fun _ => rfl) (fun _ => rfl) (by decide)
  case trigger => exact fun w h => ⟨rfl, rfl, zero_append_argOf h (by decide) (by decide)⟩
  case update =>
    refine fun w h => ⟨rfl, rfl, ?_⟩
    show 0#16 ++ argOf w 24 8 ++ argOf w 16 8 ++ argOf w 8 8 ++ argOf w 0 8 = argOf w 0 48
    rw [← argOf_eq_zero h (lo := 32) (by decide) (by decide)]
    repeat rw [argOf_append_argOf _ (by decide)]

theorem lfoRows_readBack : ∀ r ∈ lfoRows, ReadsBack r := by
  simp only [lfoRows, List.forall_mem_cons]
  refine ⟨?init, ?setshape, ?setinc, ?render, ?sync, List.forall_mem_nil _⟩
  case init | render => exact readsBack_idxOnly (fun _ => rfl) (fun _ => rfl) (fun _ => rfl) (by decide)
  case setshape | setinc | sync => exact fun w h => ⟨rfl, rfl, zero_append_argOf h (by decide) (by decide)⟩

theorem clkRows_readBack : ∀ r ∈ clkRows, ReadsBack r := by
  simp only [clkRows, List.forall_mem_cons]
  refine ⟨?init, ?update, ?setres, ?tick, ?count, List.forall_mem_nil _⟩
  case init | tick | count => exact readsBack_fixed (by decide)
  case setres => exact fun w h => ⟨rfl, zero_eq_idxOf h (by decide) (by decide), zero_append_argOf h (by decide) (by decide)⟩
  case update =>
    refine fun w h => ⟨rfl, zero_eq_idxOf h (by decide) (by decide), ?_⟩
    show 0#24 ++ argOf w 16 8 ++ argOf w 8 8 ++ argOf w 0 8 = argOf w 0 48
    rw [← argOf_eq_zero h (lo := 24) (by decide) (by decide)]
    repeat rw [argOf_append_argOf _ (by decide)]

theorem gldRows_readBack : ∀ r ∈ gldRows, ReadsBack r := by
  simp only [gldRows, List.forall_mem_cons]
  refine ⟨?init, ?setinc, ?start, ?render, List.forall_mem_nil _⟩
  case init | render => exact readsBack_fixed (by decide)
  case setinc => exact fun w h => ⟨rfl, zero_eq_idxOf h (by decide) (by decide), zero_append_argOf h (by decide) (by decide)⟩
  case start =>
    refine fun w h => ⟨rfl, zero_eq_idxOf h (by decide) (by decide), ?_⟩
    show 0#31 ++ BitVec.ofBool (argFlag w 16) ++ argOf w 0 16 = argOf w 0 48
    rw [← argOf_eq_zero h (lo := 17) (by decide) (by decide), ofBool_argFlag]
    repeat rw [argOf_append_argOf _ (by decide)]

theorem cvdRows_readBack : ∀ r ∈ cvdRows, ReadsBack r := by
  simp only [cvdRows, List.forall_mem_cons]
  refine ⟨?init, ?setcal, ?setin, ?write, ?read, ?readable, ?writable, ?lock, ?unlock, List.forall_mem_nil _⟩
  case init | write | read | readable | writable | unlock => exact readsBack_fixed (by decide)
  case setin => exact fun w h => ⟨rfl, rfl, zero_append_argOf h (by decide) (by decide)⟩
  case setcal =>
    refine fun w h => ⟨rfl, zero_eq_idxOf h (by decide) (by decide), ?_⟩
    show argOf w 32 16 ++ argOf w 16 16 ++ argOf w 0 16 = argOf w 0 48
    repeat rw [argOf_append_argOf _ (by decide)]
  case lock =>
    refine fun w h => ⟨rfl, zero_eq_idxOf h (by decide) (by decide), ?_⟩
    show argOf w 36 12 ++ argOf w 24 12 ++ argOf w 12 12 ++ argOf w 0 12 = argOf w 0 48
    repeat rw [argOf_append_argOf _ (by decide)]

theorem voxRows_readBack : ∀ r ∈ voxRows, ReadsBack r := by
  simp only [voxRows, List.forall_mem_cons]
  refine ⟨?init, ?gateOn, ?gateOff, ?noteOn, ?sample, ?refresh, ?setctx, ?setlegato, ?rdretrig, List.forall_mem_nil _⟩
  case init | gateOn | gateOff | sample | refresh | rdretrig => exact readsBack_fixed (by decide)
  case noteOn =>
    refine fun w h => ⟨rfl, zero_eq_idxOf h (by decide) (by decide), ?_⟩
    have h7 : argOf w 7 1 = 0#1 := argOf_eq_zero h (by decide) (by decide)
    have h15 : argOf w 15 1 = 0#1 := argOf_eq_zero h (by decide) (by decide)
    have h19 : argOf w 19 29 = 0#29 := argOf_eq_zero h (by decide) (by decide)
    calc 0#29 ++ BitVec.ofBool (argFlag w 18) ++ BitVec.ofBool (argFlag w 17) ++ BitVec.ofBool (argFlag w 16) ++ 0#1 ++
          argOf w 8 7 ++ 0#1 ++ argOf w 0 7
        = argOf w 19 29 ++ argOf w 18 1 ++ argOf w 17 1 ++ argOf w 16 1 ++ argOf w 15 1 ++ argOf w 8 7 ++ argOf w 7 1 ++
          argOf w 0 7 := by simp only [ofBool_argFlag, h7, h15, h19]
      _ = argOf w 0 48 := by repeat rw [argOf_append_argOf _ (by decide)]
  case setctx =>
    refine fun w h => ⟨rfl, zero_eq_idxOf h (by decide) (by decide), ?_⟩
    show 0#32 ++ argOf w 8 8 ++ 0#3 ++ argOf w 0 5 = argOf w 0 48
    rw [← argOf_eq_zero h (lo := 16) (by decide) (by decide), ← argOf_eq_zero h (lo := 5) (len := 3) (by decide) (by decide)]
    repeat rw [argOf_append_argOf _ (by decide)]
  case setlegato =>
    refine fun w h => ⟨rfl, zero_eq_idxOf h (by decide) (by decide), ?_⟩
    show 0#47 ++ BitVec.ofBool (argFlag w 0) = argOf w 0 48
    rw [ofBool_argFlag]
    exact zero_append_argOf h (by decide) (by decide)

theorem opcodeMap_readBack : ∀ r ∈ opcodeMap, ReadsBack r := by
  simp only [opcodeMap, List.forall_mem_append]
  exact ⟨⟨⟨⟨⟨⟨sysRows_readBack, envRows_readBack⟩, lfoRows_readBack⟩, clkRows_readBack⟩, gldRows_readBack⟩, cvdRows_readBack⟩,
    voxRows_readBack⟩

/-- Every row demands `RSV` zero (R101). -/
theorem opcodeMap_rsv : ∀ r ∈ opcodeMap, r.mask.extractLsb' 48 4 = BitVec.allOnes 4 ∧ r.pattern.extractLsb' 48 4 = 0 := by decide

/-- A word that passes the must-be-zero check of its row is the word of the command cut from it. -/
theorem encode_cut_of_masked {w : CommandWord} {r : Row} (hrow : rowOf w = some r) (h : w &&& r.mask = r.pattern) :
    encode (r.cut w) = w := by
  obtain ⟨hopc, hidx, harg⟩ := opcodeMap_readBack r (rowOf_mem hrow) w h
  obtain ⟨hmask, hpattern⟩ := opcodeMap_rsv r (rowOf_mem hrow)
  have hrsv : w.extractLsb' 48 4 = 0 := (extractLsb'_of_masked h hmask).trans hpattern
  rw [encode, hopc, hidx, harg, rowOf_opc hrow, wordOf_fields w hrsv]

/-! ## The checks of R108 on an issued word -/

theorem issue_of_decodeOn_error {p : Port} {w : CommandWord} {k : Reject} (h : decodeOn p w = .error k) (s : State) :
    issue p w s = .next (s.reject p k) := by
  rw [issue, h]

/-- The word of a command, on its port, is that command performed. -/
theorem issue_of_encode {i : Instr} {w : CommandWord} {p : Port} (hw : encode i = w) (hp : i.port = p) (s : State) :
    issue p w s = exec i s := by
  rw [issue, decodeOn_of_encode hw hp]

/-- Check 1: the opcode. -/
theorem decodeOn_of_opcode_not_mem {w : CommandWord} (h : opcOf w ∉ opcodes) (p : Port) :
    decodeOn p w = .error .reservedOpcode := by
  rw [decodeOn, (rowOf_eq_none_iff w).2 h]

/-- Check 2: the port. -/
theorem decodeOn_of_wrong_port {p : Port} {w : CommandWord} (hopc : opcOf w ∈ opcodes) (hp : ¬ (p = .T ↔ tickOpcode (opcOf w))) :
    decodeOn p w = .error .wrongPort := by
  cases hrow : rowOf w with
  | none => exact absurd hopc ((rowOf_eq_none_iff w).1 hrow)
  | some r => simp only [decodeOn, hrow, if_neg (mt (rowOf_port_eq_iff hrow p).1 hp)]

/-- Check 3: the must-be-zero bits. -/
theorem decodeOn_of_no_encoding {p : Port} {w : CommandWord} (hopc : opcOf w ∈ opcodes) (hp : p = .T ↔ tickOpcode (opcOf w))
    (hw : ∀ i, encode i ≠ w) : decodeOn p w = .error .nonzeroReserved := by
  cases hrow : rowOf w with
  | none => exact absurd hopc ((rowOf_eq_none_iff w).1 hrow)
  | some r =>
    have hmask : w &&& r.mask ≠ r.pattern := fun h => hw _ (encode_cut_of_masked hrow h)
    simp only [decodeOn, hrow, if_pos ((rowOf_port_eq_iff hrow p).2 hp), Row.read, if_neg hmask]

/-! ## Check 4: operands outside their ranges name nothing -/

theorem envIndex_eq_none {e : BitVec 4} (h : ¬ e.toNat ≤ 2) : envIndex e = none :=
  dif_neg fun hlt => h (Nat.le_of_lt_succ hlt)

theorem lfoIndex_eq_none {l : BitVec 4} (h : ¬ l.toNat ≤ 1) : lfoIndex l = none :=
  dif_neg fun hlt => h (Nat.le_of_lt_succ hlt)

theorem channelIndex_eq_none {c : BitVec 4} (h : ¬ c.toNat ≤ 3) : channelIndex c = none :=
  dif_neg fun hlt => h (Nat.le_of_lt_succ hlt)

theorem segment_ofCode_eq_none : ∀ x : BitVec 3, ¬ x.toNat ≤ 4 → Segment.ofCode x = none := by decide

theorem legalRes_eq_none {x : BitVec 8} (h : ¬ (x.toNat = 1 ∨ x.toNat = 2 ∨ x.toNat = 6)) : legalRes x = none := by
  refine if_neg fun hx => h ?_
  rcases hx with rfl | rfl | rfl <;> decide

theorem legalUpdate_eq_none {cfg : Config} {bpm template : BitVec 8} (h : ¬ (1 ≤ bpm.toNat ∧ template.toNat ≤ cfg.nGroove - 1)) :
    legalUpdate cfg bpm template = none := by
  refine if_neg fun ⟨hbpm, htemplate⟩ => h ⟨?_, by omega⟩
  exact Nat.pos_of_ne_zero fun h0 => hbpm (BitVec.eq_of_toNat_eq h0)

/-! The read-out addresses: what the address decoder finds has the address it was asked for (10_state.md section 10). -/

theorem sysReg_addr {r : Nat} {x : Reg} (h : sysReg r = some x) : addrOf x = r := by
  unfold sysReg at h
  split at h <;> cases h <;> rfl

theorem envReg_addr {e : Fin nEnv} {r : Nat} {x : Reg} (h : envReg e r = some x) : addrOf x = 0x1000 + 0x100 * e + r := by
  unfold envReg at h
  split at h <;> cases h <;> simp only [addrOf, Segment.code, BitVec.reduceToNat] <;> omega

theorem lfoReg_addr {l : Fin nLfo} {r : Nat} {x : Reg} (h : lfoReg l r = some x) : addrOf x = 0x2000 + 0x100 * l + r := by
  unfold lfoReg at h
  split at h <;> cases h <;> simp only [addrOf] <;> omega

theorem clkReg_addr {r : Nat} {x : Reg} (h : clkReg r = some x) : addrOf x = 0x3000 + r := by
  unfold clkReg at h
  split_ifs at h with hdur
  · cases h
    simp only [addrOf, BitVec.toNat_ofNat]; omega
  · split at h <;> cases h <;> rfl

theorem gldReg_addr {r : Nat} {x : Reg} (h : gldReg r = some x) : addrOf x = 0x4000 + r := by
  unfold gldReg at h
  split at h <;> cases h <;> rfl

theorem cvdReg_addr {r : Nat} {x : Reg} (h : cvdReg r = some x) : addrOf x = 0x5000 + r := by
  unfold cvdReg at h
  split_ifs at h
  case neg => split at h <;> cases h <;> rfl
  all_goals
    cases h
    simp only [addrOf, Fin.val_ofNat]
    omega

theorem voxReg_addr {r : Nat} {x : Reg} (h : voxReg r = some x) : addrOf x = 0x6000 + r := by
  unfold voxReg at h
  split_ifs at h with hctx
  · cases h
    simp only [addrOf, BitVec.toNat_ofNat]; omega
  · split at h <;> cases h <;> rfl

/-- The register found at an address has that address. -/
theorem regOfAddr_addr {a : BitVec 16} {x : Reg} (h : regOfAddr a = some x) : addrOf x = a.toNat := by
  simp only [regOfAddr] at h
  split_ifs at h
  · rw [envReg_addr h]; simp only; omega
  · rw [lfoReg_addr h]; simp only; omega
  · split at h
    · rw [sysReg_addr h]; omega
    · rw [clkReg_addr h]; omega
    · rw [gldReg_addr h]; omega
    · rw [cvdReg_addr h]; omega
    · rw [voxReg_addr h]; omega
    · cases h

theorem regOfAddr_eq_none {a : BitVec 16} (h : ¬ ∃ r, addrOf r = a.toNat) : regOfAddr a = none :=
  Option.eq_none_iff_forall_ne_some.2 fun r hr => h ⟨r, regOfAddr_addr hr⟩

/-- A command whose checked operand names nothing is rejected with code 2. -/
theorem withOperand_of_none {α : Type} {x : Option α} (hx : x = none) (s : State) (f : α → State) :
    s.withOperand x f = s.reject .C .reservedOperand := by
  rw [hx, State.withOperand_none]

/-- Check 4: a command with an operand outside its range (R106) is rejected with code 2. -/
theorem exec_of_not_inRange {i : Instr} (h : ¬ InRange config i) (s : State) :
    exec i s = .next (s.reject i.port .reservedOperand) := by
  cases i
  case sysRdreg => exact congrArg Host.Outcome.next (withOperand_of_none (regOfAddr_eq_none h) s _)
  case envInit | envUpdate | envRender | envGate =>
    exact congrArg Host.Outcome.next (withOperand_of_none (envIndex_eq_none h) s _)
  case lfoInit | lfoSetshape | lfoSetinc | lfoRender | lfoSync =>
    exact congrArg Host.Outcome.next (withOperand_of_none (lfoIndex_eq_none h) s _)
  case clkUpdate => exact congrArg Host.Outcome.next (withOperand_of_none (legalUpdate_eq_none h) s _)
  case clkSetres => exact congrArg Host.Outcome.next (withOperand_of_none (legalRes_eq_none h) s _)
  case cvdSetin => exact congrArg Host.Outcome.next (withOperand_of_none (channelIndex_eq_none h) s _)
  case envTrigger e seg =>
    refine congrArg Host.Outcome.next ?_
    rcases State.withOperand_cases s (envIndex e) _ with ⟨k, hk, heq⟩ | ⟨-, heq⟩
    · have he : e.toNat ≤ 2 := not_lt.1 fun hlt => by rw [envIndex_eq_none (not_le.2 hlt)] at hk; cases hk
      exact heq.trans (withOperand_of_none (segment_ofCode_eq_none seg fun hseg => h ⟨he, hseg⟩) s _)
    · exact heq
  all_goals exact absurd trivial h

/-- Check 5: a full ring. -/
theorem exec_of_ring_full {i : Instr} (hi : i = .cvdWrite ∨ i = .voxSample) {s : State} (hfull : s.cvd.writable = 0) :
    exec i s = .next (s.reject .C .ringFull) := by
  rcases hi with rfl | rfl
  · exact congrArg Host.Outcome.next (if_pos hfull)
  · exact congrArg Host.Outcome.next (if_pos hfull)

/-! ## The obligations -/

/-- Settles O4: checks 1 to 3 are the decoder's, check 4 and check 5 the command's own, on the port that accepts it. -/
theorem firstFailingCheckGivesTheRejectCode : Obligations.FirstFailingCheckGivesTheRejectCode := by
  intro p w s
  refine ⟨fun hopc => ?opcode, fun hopc hp => ?port, fun hopc hp hw => ?mustBeZero, fun i hw hp hrange => ?operand,
    fun i hw hp hi hfull => ?ring⟩
  case opcode => exact issue_of_decodeOn_error (decodeOn_of_opcode_not_mem hopc p) s
  case port => exact issue_of_decodeOn_error (decodeOn_of_wrong_port hopc hp) s
  case mustBeZero => exact issue_of_decodeOn_error (decodeOn_of_no_encoding hopc hp hw) s
  case operand =>
    have hport : i.port = p := port_eq_of_encode hw hp
    rw [issue_of_encode hw hport, exec_of_not_inRange hrange, hport]
  case ring =>
    subst hp
    have hport : i.port = .C := by rcases hi with rfl | rfl <;> rfl
    rw [issue_of_encode hw hport, exec_of_ring_full hi hfull]

/-- Settles O2: each word is computed by the encoder, and decoding gives the command back on its port. -/
theorem encodingExamplesDecode : Obligations.EncodingExamplesDecode := by
  have hUpdate : encode (.envUpdate 0 0 16 128 32) = 0x1100000020801000 := by decide
  have hTrigger : encode (.envTrigger 2 3) = 0x1220000000000003 := by decide
  have hSetcal : encode (.cvdSetcal 8738 9000 (-100)) = 0x5100FF9C23282222 := by decide
  have hNoteOn : encode (.voxNoteOn 60 100 false true false) = 0x630000000002643C := by decide
  have hTick : encode .clkTick = 0x3300000000000000 := by decide
  exact ⟨⟨hUpdate, hTrigger, hSetcal, hNoteOn, hTick⟩, decodeOn_of_encode hUpdate rfl, decodeOn_of_encode hTrigger rfl,
    decodeOn_of_encode hSetcal rfl, decodeOn_of_encode hNoteOn rfl, decodeOn_of_encode hTick rfl⟩

/-- Settles O3: the zero word is the encoding of SYS.NOP, and the all-ones word fails check 1. -/
theorem zeroWordIsNopAndOnesWordIsRejected : Obligations.ZeroWordIsNopAndOnesWordIsRejected := by
  have hNop : encode .sysNop = 0 := by decide
  have hOnes : opcOf (BitVec.allOnes 64) ∉ opcodes := by decide
  exact ⟨decodeOn_of_encode hNop rfl, fun p s => issue_of_decodeOn_error (decodeOn_of_opcode_not_mem hOnes p) s⟩

end Sys2Proof.Proofs.Encoding
end

section
/-! PROOFS. The statements of 40_env.md: how a segment runs from its trigger to its completion, and what ENV.GATE reports. -/

namespace Sys2Proof.Proofs.Envelope

open Sys2Proof Sys2Proof.Machine Sys2Proof.Claims Sys2Proof.Proofs.Encoding

/-! ## The interpolation primitive (00_scope.md R10) -/

theorem mix16_zero (a b : BitVec 16) : mix16 a b 0 = a := by
  have hzero : (0 : BitVec 16).toNat = 0 := rfl
  apply BitVec.eq_of_toNat_eq
  rw [toNat_mix16, hzero]
  omega

/-- The numerator of the interpolation, upward: the start plus a part of the way. -/
theorem mix_numerator_up {a b : Nat} (h : a ≤ b) {c : Nat} (hc : c ≤ 65536) :
    a * (65536 - c) + b * c = a * 65536 + (b - a) * c := by
  obtain ⟨d, rfl⟩ := Nat.exists_eq_add_of_le h
  obtain ⟨r, hr⟩ := Nat.exists_eq_add_of_le hc
  rw [hr, Nat.add_sub_cancel_left, Nat.add_sub_cancel_left]
  ring

/-- The numerator of the interpolation, downward: the target plus what is left of the way. -/
theorem mix_numerator_down {a b : Nat} (h : b ≤ a) {c : Nat} (hc : c ≤ 65536) :
    a * (65536 - c) + b * c = b * 65536 + (a - b) * (65536 - c) := by
  have hup := mix_numerator_up h (Nat.sub_le 65536 c)
  rw [Nat.sub_sub_self hc] at hup
  rw [← hup, Nat.add_comm]

theorem mix16_mono {a b c d : BitVec 16} (h : a ≤ b) (hcd : c ≤ d) : mix16 a b c ≤ mix16 a b d := by
  have hc := c.isLt; have hd := d.isLt
  rw [BitVec.le_def] at h hcd ⊢
  rw [toNat_mix16, toNat_mix16, mix_numerator_up h (by omega), mix_numerator_up h (by omega)]
  exact Nat.div_le_div_right (Nat.add_le_add_left (Nat.mul_le_mul_left _ hcd) _)

theorem mix16_anti {a b c d : BitVec 16} (h : b ≤ a) (hcd : c ≤ d) : mix16 a b d ≤ mix16 a b c := by
  have hc := c.isLt; have hd := d.isLt
  rw [BitVec.le_def] at h hcd ⊢
  rw [toNat_mix16, toNat_mix16, mix_numerator_down h (by omega), mix_numerator_down h (by omega)]
  exact Nat.div_le_div_right (Nat.add_le_add_left (Nat.mul_le_mul_left _ (Nat.sub_le_sub_left hcd _)) _)

theorem zero_le_word (c : BitVec 16) : 0 ≤ c := BitVec.le_def.2 (Nat.zero_le _)

theorem start_le_mix16 {a b : BitVec 16} (h : a ≤ b) (c : BitVec 16) : a ≤ mix16 a b c := by
  have hmono := mix16_mono h (zero_le_word c)
  rwa [mix16_zero] at hmono

theorem mix16_le_start {a b : BitVec 16} (h : b ≤ a) (c : BitVec 16) : mix16 a b c ≤ a := by
  have hanti := mix16_anti h (zero_le_word c)
  rwa [mix16_zero] at hanti

theorem mix16_le_target {a b : BitVec 16} (h : a ≤ b) (c : BitVec 16) : mix16 a b c ≤ b := by
  have hc := c.isLt
  rw [BitVec.le_def] at h ⊢
  have hway : (b.toNat - a.toNat) * c.toNat ≤ (b.toNat - a.toNat) * 65536 := Nat.mul_le_mul_left _ (by omega)
  rw [toNat_mix16, mix_numerator_up h (by omega)]
  omega

theorem target_le_mix16 {a b : BitVec 16} (h : b ≤ a) (c : BitVec 16) : b ≤ mix16 a b c := by
  have hc := c.isLt
  rw [BitVec.le_def] at h ⊢
  rw [toNat_mix16, mix_numerator_down h (by omega)]
  omega

/-! ## A segment under way (40_env.md R134) -/

/-- The curve at phase `n`, whose top eight bits index it (20_memory.md R72). -/
def curveAt (cfg : Config) (n : Nat) : BitVec 16 := cfg.envCurve ((BitVec.ofNat 32 n).extractLsb' 24 8)

/-- The curve starts at 0, by the constraint on the configuration. -/
theorem curveAt_zero (cfg : Config) : curveAt cfg 0 = 0 := cfg.envCurve_zero

/-- A later phase has no smaller index into the curve, so no smaller curve value. -/
theorem curveAt_mono (cfg : Config) {m n : Nat} (hmn : m ≤ n) (hn : n < 2 ^ 32) : curveAt cfg m ≤ curveAt cfg n := by
  apply cfg.envCurve_mono
  simp only [BitVec.le_def, BitVec.extractLsb'_toNat, BitVec.toNat_ofNat, Nat.shiftRight_eq_div_pow]
  omega

/-- The envelope at phase `n` of its segment, its value the curve's interpolation there. -/
def atPhase (cfg : Config) (x : Env) (n : Nat) : Env :=
  { x with phase := BitVec.ofNat 32 n, value := mix16 x.a x.b (curveAt cfg n) }

@[simp] theorem atPhase_seg (cfg : Config) (x : Env) (n : Nat) : (atPhase cfg x n).seg = x.seg := rfl
@[simp] theorem atPhase_b (cfg : Config) (x : Env) (n : Nat) : (atPhase cfg x n).b = x.b := rfl
@[simp] theorem atPhase_inc (cfg : Config) (x : Env) (n : Nat) (g : Segment) : (atPhase cfg x n).inc g = x.inc g := by
  cases g <;> rfl
@[simp] theorem atPhase_target (cfg : Config) (x : Env) (n : Nat) (g : Segment) : (atPhase cfg x n).target g = x.target g := by
  cases g <;> rfl
theorem atPhase_phase (cfg : Config) (x : Env) {n : Nat} (h : n < 2 ^ 32) : (atPhase cfg x n).phase.toNat = n := by
  rw [atPhase, BitVec.toNat_ofNat, Nat.mod_eq_of_lt h]

/-- A trigger leaves the segment at phase 0, where the curve gives the start value. -/
theorem atPhase_zero_trigger (cfg : Config) (e : Env) (g : Segment) : atPhase cfg (e.trigger g) 0 = e.trigger g := by
  rw [atPhase, curveAt_zero, mix16_zero]
  rfl

/-- Without overflow a render moves the phase on by the increment. -/
theorem render_atPhase (cfg : Config) (x : Env) {n : Nat} (h : n + (x.inc x.seg).toNat < 2 ^ 32) :
    (atPhase cfg x n).render cfg = atPhase cfg x (n + (x.inc x.seg).toNat) := by
  have hph := atPhase_phase cfg x (n := n) (by omega)
  rcases Env.render_cases cfg (atPhase cfg x n) with ⟨-, heq⟩ | ⟨hover, -⟩
  · have hsum : (atPhase cfg x n).phase + x.inc x.seg = BitVec.ofNat 32 (n + (x.inc x.seg).toNat) := by
      rw [BitVec.ofNat_add, BitVec.ofNat_toNat, BitVec.setWidth_eq]; rfl
    rw [heq, atPhase_seg, atPhase_inc, hsum]
    rfl
  · rw [hph, atPhase_seg, atPhase_inc] at hover
    omega

/-- With overflow it completes the segment. -/
theorem render_atPhase_completes (cfg : Config) (x : Env) {n : Nat} (hn : n < 2 ^ 32)
    (h : 2 ^ 32 ≤ n + (x.inc x.seg).toNat) : (atPhase cfg x n).render cfg = (atPhase cfg x n).complete := by
  rcases Env.render_cases cfg (atPhase cfg x n) with ⟨hno, -⟩ | ⟨-, heq⟩
  · rw [atPhase_phase cfg x hn, atPhase_seg, atPhase_inc] at hno
    omega
  · exact heq

/-- The run of a segment: until the phase overflows, `k` renders after its trigger it is at phase `k * inc`. -/
theorem iterate_render_trigger (cfg : Config) (e : Env) (g : Segment) {k : Nat} (h : k * (e.inc g).toNat < 2 ^ 32) :
    (Env.render cfg)^[k] (e.trigger g) = atPhase cfg (e.trigger g) (k * (e.inc g).toNat) := by
  induction k with
  | zero => rw [Nat.zero_mul, atPhase_zero_trigger, Function.iterate_zero_apply]
  | succ k ih =>
    rw [Nat.succ_mul] at h ⊢
    have hinc : ((e.trigger g).inc (e.trigger g).seg).toNat = (e.inc g).toNat := by simp
    rw [Function.iterate_succ_apply', ih (by omega), render_atPhase cfg _ (by rw [hinc]; exact h), hinc]

/-! ## Completion (R136) -/

/-- The completing call of a segment that moves: the target exactly, phase 0, the segment after it. The two segments without a way out,
SUSTAIN and DEAD, do not move. -/
theorem complete_of_moving {x : Env} (hmoves : x.inc x.seg ≠ 0) (hb : x.b = x.target x.seg) :
    x.complete.value = x.target x.seg ∧ x.complete.phase = 0 ∧ some x.complete.seg = Segment.following x.seg := by
  unfold Env.complete
  cases hg : x.seg with
  | attack | decay => rw [hg] at hb; exact ⟨hb, rfl, rfl⟩
  | release => exact ⟨rfl, rfl, rfl⟩
  | sustain | dead => rw [hg] at hmoves; exact absurd rfl hmoves

theorem lt_ceilDiv_iff {n d : Nat} (hd : 0 < d) (k : Nat) : k < ceilDiv n d ↔ k * d < n := by
  rw [ceilDiv, ← Nat.succ_le_iff, Nat.le_div_iff_mul_le hd, Nat.succ_mul]
  omega

/-- The render that overflows is number `ceil(2^32 / inc)`, and it completes the segment as its last phase left it. -/
theorem iterate_render_trigger_completes (cfg : Config) (e : Env) (g : Segment) (h : e.inc g ≠ 0) :
    ∃ ph, (Env.render cfg)^[ceilDiv (2 ^ 32) (e.inc g).toNat] (e.trigger g) = (atPhase cfg (e.trigger g) ph).complete := by
  have hpos := BitVec.toNat_pos_of_ne_zero h
  cases hn : ceilDiv (2 ^ 32) (e.inc g).toNat with
  | zero =>
    have hfirst : 0 < ceilDiv (2 ^ 32) (e.inc g).toNat := (lt_ceilDiv_iff hpos 0).2 (by omega)
    omega
  | succ m =>
    have hlast : m * (e.inc g).toNat < 2 ^ 32 := (lt_ceilDiv_iff hpos m).1 (by omega)
    have hover : 2 ^ 32 ≤ m * (e.inc g).toNat + (e.inc g).toNat := by
      rw [← Nat.succ_mul, ← Nat.not_lt, ← lt_ceilDiv_iff hpos]
      omega
    refine ⟨m * (e.inc g).toNat, ?_⟩
    rw [Function.iterate_succ_apply', iterate_render_trigger cfg e g hlast]
    exact render_atPhase_completes cfg _ hlast (by simpa using hover)

/-- Settles O26: the run of a segment up to its last phase, the completing call after it, and SUSTAIN, whose increment is 0. -/
theorem envSegmentCompletionCount : Obligations.EnvSegmentCompletionCount := by
  refine ⟨fun cfg e g hmoves => ?completes, fun cfg e n => ?sustain, by decide⟩
  case completes =>
    obtain ⟨ph, hlast⟩ := iterate_render_trigger_completes cfg e g hmoves
    have hdone := complete_of_moving (x := atPhase cfg (e.trigger g) ph) (by simpa using hmoves) (by simp)
    rw [← hlast, atPhase_seg, atPhase_target, Env.trigger_seg, Env.trigger_target] at hdone
    exact ⟨fun k _ hk => iterate_render_trigger cfg e g ((lt_ceilDiv_iff (BitVec.toNat_pos_of_ne_zero hmoves) k).1 hk), hdone⟩
  case sustain =>
    have hstill : n * (e.inc .sustain).toNat < 2 ^ 32 := by simp
    rw [iterate_render_trigger cfg e .sustain hstill, atPhase_seg, Env.trigger_seg]

/-! ## Monotonicity (R137) -/

/-- Settles O27: every value up to the last phase is the interpolation along the curve, which is monotone and stays between the start and the
target. -/
theorem envMovesMonotonicallyToItsTarget : Obligations.EnvMovesMonotonicallyToItsTarget := by
  intro cfg e g i j hij hj x v
  have hle : i * (e.inc g).toNat ≤ j * (e.inc g).toNat := Nat.mul_le_mul_right _ hij
  have hvi : v i = mix16 x.a x.b (curveAt cfg (i * (e.inc g).toNat)) :=
    congrArg Env.value (iterate_render_trigger cfg e g (lt_of_le_of_lt hle hj))
  have hvj : v j = mix16 x.a x.b (curveAt cfg (j * (e.inc g).toNat)) :=
    congrArg Env.value (iterate_render_trigger cfg e g hj)
  have hc := curveAt_mono cfg hle hj
  rw [hvi, hvj]
  exact ⟨fun hup => ⟨start_le_mix16 hup _, mix16_mono hup hc, mix16_le_target hup _⟩,
    fun hdown => ⟨target_le_mix16 hdown _, mix16_anti hdown hc, mix16_le_start hdown _⟩⟩

/-! ## ENV.GATE (R135) -/

/-- What ENV.GATE returns in a segment. -/
def gateResult (g : Segment) : ResultWord :=
  match g with
  | .attack | .decay | .sustain => 1
  | .release | .dead => 0

/-- The result is the comparison with RELEASE that the model makes. -/
theorem gateResult_eq (x : Env) : gateResult x.seg = if x.gate then 1 else 0 := by
  unfold Env.gate
  cases x.seg <;> rfl

theorem exec_envGate {e : BitVec 4} (h : e.toNat < nEnv) (s : State) :
    exec (.envGate e) s = .next (s.reply .C (gateResult s.env[e.toNat].seg)) := by
  change Host.Outcome.next (s.withOperand (envIndex e) _) = _
  rw [envIndex_of_lt e h, State.withOperand_some, gateResult_eq]
  rfl

/-- A legal ENV.TRIGGER of envelope 0 leaves it in the segment named. -/
theorem seg_of_exec_envTrigger_zero {c : BitVec 3} {g : Segment} (hc : Segment.ofCode c = some g) {s t : State}
    (h : exec (.envTrigger 0 c) s = .next t) : t.env[0].seg = g := by
  change Host.Outcome.next (s.withOperand (envIndex 0) _) = _ at h
  rw [envIndex_of_lt 0 (by decide), State.withOperand_some, hc, State.withOperand_some] at h
  cases h
  simp

/-- No command with opcode 0x14 has a bit of `ARG` set. -/
theorem arg_eq_zero_of_opc_envGate {i : Instr} (h : i.opc = 0x14) : i.arg = 0 := by
  cases i
  case envGate => rfl
  all_goals simp [Instr.opc] at h

theorem encode_ne_of_envGate_arg {w : CommandWord} (hopc : opcOf w = 0x14) (harg : w.extractLsb' 0 48 ≠ 0) (i : Instr) :
    encode i ≠ w := by
  rintro rfl
  rw [encode, opcOf_wordOf] at hopc
  refine harg ((argOf_wordOf _ _ _ 0 48 (by decide)).trans ?_)
  rw [arg_eq_zero_of_opc_envGate hopc]
  decide

/-- Settles O23: the result segment by segment, checks 4 and 3 of R108 on the command's words, and the rule's three readings. -/
theorem envGateReportsTheSegment : Obligations.EnvGateReportsTheSegment := by
  refine ⟨fun e h s => ?result, fun e s h => ?operand, fun w s hopc harg => ?argument, ?atReset, fun s t u ht hu => ?triggered⟩
  case result => exact exec_envGate h s
  case operand =>
    have hrange : ¬ InRange config (.envGate e) := fun hle : e.toNat ≤ 2 => absurd h (not_le.2 (Nat.lt_succ_of_le hle))
    rw [issue_of_encode (i := .envGate e) (p := .C) rfl rfl, exec_of_not_inRange hrange]
    rfl
  case argument =>
    refine issue_of_decodeOn_error (decodeOn_of_no_encoding ?_ ?_ (encode_ne_of_envGate_arg hopc harg)) s
    · rw [hopc]; decide
    · rw [hopc]; unfold tickOpcode; decide
  case atReset => exact exec_envGate (by decide) State.reset
  case triggered =>
    have hgate (x : State) : exec (.envGate 0) x = .next (x.reply .C (gateResult x.env[0].seg)) := exec_envGate (by decide) x
    rw [hgate, hgate, seg_of_exec_envTrigger_zero rfl ht, seg_of_exec_envTrigger_zero rfl hu]
    exact ⟨rfl, rfl⟩

end Sys2Proof.Proofs.Envelope
end

section
/-! PROOFS. The statements of 43_glide.md: when a glide arrives (R196), and that the first note never glides (R197). -/

namespace Sys2Proof.Proofs.Glide

open Sys2Proof Sys2Proof.Machine Sys2Proof.Claims Sys2Proof.Proofs.Envelope

/-! ## One render (R195) -/

/-- The glide `g` as a render leaves it with the counter at `n`. -/
def atCounter (g : Gld) (n : Nat) : Gld :=
  { g with counter := BitVec.ofNat 16 n, pitch := mix16 g.source g.target (BitVec.ofNat 16 n) }

@[simp] theorem atCounter_inc (g : Gld) (n : Nat) : (atCounter g n).inc = g.inc := rfl
@[simp] theorem atCounter_atCounter (g : Gld) (m n : Nat) : atCounter (atCounter g m) n = atCounter g n := rfl

theorem atCounter_counter (g : Gld) {n : Nat} (h : n < 2 ^ 16) : (atCounter g n).counter.toNat = n :=
  (BitVec.toNat_ofNat n 16).trans (Nat.mod_eq_of_lt h)

/-- The glide `g` as its completing render leaves it. -/
def arrived (g : Gld) : Gld := { g with source := g.target, counter := 0, pitch := g.target }

@[simp] theorem arrived_atCounter (g : Gld) (n : Nat) : arrived (atCounter g n) = arrived g := rfl

/-- A render without overflow moves the counter on by the increment. -/
theorem render_advances {g : Gld} (h : g.counter.toNat + g.inc.toNat < 2 ^ 16) :
    g.render = atCounter g (g.counter.toNat + g.inc.toNat) := by
  have hsum : g.counter + g.inc = BitVec.ofNat 16 (g.counter.toNat + g.inc.toNat) := by
    rw [BitVec.ofNat_add, BitVec.ofNat_toNat, BitVec.ofNat_toNat, BitVec.setWidth_eq, BitVec.setWidth_eq]
  rcases Gld.ramp_cases g with ⟨-, heq⟩ | ⟨hover, -⟩
  · rw [Gld.render, heq, hsum]; rfl
  · omega

/-- With overflow it completes the glide. -/
theorem render_arrives {g : Gld} (h : 2 ^ 16 ≤ g.counter.toNat + g.inc.toNat) : g.render = arrived g := by
  rcases Gld.ramp_cases g with ⟨hno, -⟩ | ⟨-, heq⟩
  · omega
  · have hpitch : Gld.current { g with source := g.target, counter := 0 } = g.target := mix16_zero _ _
    rw [Gld.render, heq, hpitch]; rfl

/-! ## Completion (R196) -/

/-- The run of a glide: until the counter overflows, it is at `k * inc` after render `k`. -/
theorem iterate_render_succ {g : Gld} (h0 : g.counter = 0) {k : Nat} (h : (k + 1) * g.inc.toNat < 2 ^ 16) :
    Gld.render^[k + 1] g = atCounter g ((k + 1) * g.inc.toNat) := by
  induction k with
  | zero =>
    have hfirst : g.counter.toNat + g.inc.toNat = (0 + 1) * g.inc.toNat := by simp [h0]
    rw [Function.iterate_succ_apply, Function.iterate_zero_apply, render_advances (by omega), hfirst]
  | succ k ih =>
    rw [Nat.succ_mul] at h ⊢
    have hcounter := atCounter_counter g (n := (k + 1) * g.inc.toNat) (by omega)
    rw [Function.iterate_succ_apply', ih (by omega), render_advances (by rw [hcounter]; exact h), hcounter,
      atCounter_inc, atCounter_atCounter]

/-- The render that overflows is number `ceil(2^16 / inc)`, never the first. -/
theorem iterate_render_arrives {g : Gld} (hinc : g.inc ≠ 0) (h0 : g.counter = 0) :
    Gld.render^[ceilDiv 65536 g.inc.toNat] g = arrived g := by
  have hlt := lt_ceilDiv_iff (n := 65536) (BitVec.toNat_pos_of_ne_zero hinc)
  have hsecond : 1 < ceilDiv 65536 g.inc.toNat := (hlt 1).2 (by have := g.inc.isLt; omega)
  obtain ⟨m, hm⟩ := Nat.exists_eq_add_of_lt hsecond
  have hn : ceilDiv 65536 g.inc.toNat = (m + 1) + 1 := by omega
  have hlast : (m + 1) * g.inc.toNat < 2 ^ 16 := (hlt (m + 1)).1 (by omega)
  have hover : 2 ^ 16 ≤ (m + 1) * g.inc.toNat + g.inc.toNat := by
    rw [← Nat.succ_mul]
    exact Nat.not_lt.1 (mt (hlt (m + 1 + 1)).2 (by omega))
  rw [hn, Function.iterate_succ_apply', iterate_render_succ h0 hlast, render_arrives, arrived_atCounter]
  rwa [atCounter_counter g hlast, atCounter_inc]

/-- Settles O44: the run of a glide up to its last intermediate pitch, and the render that arrives; the rule's counts and its two runs are
evaluated. -/
theorem glideCompletionCount : Obligations.GlideCompletionCount := by
  refine ⟨fun g hinc h0 => ⟨fun k hk hlt => ?intermediate, iterate_render_arrives hinc h0⟩, by decide, by decide, by decide⟩
  case intermediate =>
    obtain ⟨j, rfl⟩ := Nat.exists_eq_add_of_le' hk
    exact iterate_render_succ h0 ((lt_ceilDiv_iff (BitVec.toNat_pos_of_ne_zero hinc) _).1 hlt)

/-! ## The first note (R197) -/

/-- A glide with nowhere to go: it stands at `p` and leads to `p`. -/
def Resting (p : BitVec 16) (g : Gld) : Prop := g.source = p ∧ g.target = p

theorem mix16_self (a c : BitVec 16) : mix16 a a c = a :=
  BitVec.le_antisymm (mix16_le_target (BitVec.le_refl a) c) (target_le_mix16 (BitVec.le_refl a) c)

/-- With no prior pitch a start snaps, whatever the wish and the increment. -/
theorem resting_start {g : Gld} (h : g.source = 0) (target : BitVec 16) (wanted : Bool) :
    Resting target (g.start target wanted) :=
  ⟨if_pos (.inr (.inl h)), Gld.start_target g target wanted⟩

/-- The ramp moves the counter, and the source only to the target. -/
theorem resting_ramp {p : BitVec 16} {g : Gld} (h : Resting p g) : Resting p g.ramp := by
  obtain ⟨hsource, htarget⟩ := h
  rcases Gld.ramp_cases g with ⟨-, heq⟩ | ⟨-, heq⟩ <;> rw [heq]
  · exact ⟨hsource, htarget⟩
  · exact ⟨htarget, htarget⟩

theorem resting_render {p : BitVec 16} {g : Gld} (h : Resting p g) : Resting p g.render := resting_ramp h

theorem resting_iterate_render {p : BitVec 16} {g : Gld} (h : Resting p g) (n : Nat) : Resting p (Gld.render^[n] g) := by
  induction n with
  | zero => exact h
  | succ n ih => rw [Function.iterate_succ_apply']; exact resting_render ih

/-- Between two equal ends every interpolated pitch is that pitch. -/
theorem render_pitch_of_resting {p : BitVec 16} {g : Gld} (h : Resting p g) : g.render.pitch = p := by
  obtain ⟨hsource, htarget⟩ := resting_ramp h
  change mix16 g.ramp.source g.ramp.target g.ramp.counter = p
  rw [hsource, htarget, mix16_self]

/-- Settles O45: the start snaps, and a glide at rest stays at rest through every render. -/
theorem firstNoteNeverGlides : Obligations.FirstNoteNeverGlides := by
  refine ⟨fun g target wanted n h => ?pitch, fun _ => rfl, rfl⟩
  case pitch =>
    rw [Function.iterate_succ_apply']
    exact render_pitch_of_resting (resting_iterate_render (resting_start h target wanted) n)

end Sys2Proof.Proofs.Glide
end

section
/-! PROOFS. The statement of 45_voice.md on VOX.GATE_OFF: every envelope is released from its value, in DEAD as elsewhere. -/

namespace Sys2Proof.Proofs.Voice

open Sys2Proof Sys2Proof.Machine Sys2Proof.Claims Sys2Proof.Proofs.Encoding Sys2Proof.Proofs.Envelope Sys2Proof.Proofs.Glide

/-! ## The command and its one word (R222) -/

/-- A release starts from the value reached and leads to zero (40_env.md R133). -/
theorem trigger_release (e : Env) : e.trigger .release = { e with seg := .release, phase := 0, a := e.value, b := 0 } := rfl

theorem triggerAll_release (s : State) :
    s.triggerAll .release = { s with env := s.env.map fun x => { x with seg := .release, phase := 0, a := x.value, b := 0 } } := by
  rw [State.triggerAll, mapAll_eq_map, funext trigger_release]

theorem eq_voxGateOff_of_opc {i : Instr} (h : i.opc = 0x62) : i = .voxGateOff := by
  cases i
  case voxGateOff => rfl
  all_goals simp [Instr.opc] at h

/-- The one word of the command has `IDX` and `ARG` zero, so a word with a bit of either set is no command's. -/
theorem encode_ne_of_voxGateOff_fields {w : CommandWord} (hopc : opcOf w = 0x62) (h : idxOf w ≠ 0 ∨ w.extractLsb' 0 48 ≠ 0)
    (i : Instr) : encode i ≠ w := by
  rintro rfl
  rw [encode, opcOf_wordOf] at hopc
  obtain rfl := eq_voxGateOff_of_opc hopc
  exact h.elim (absurd (by decide)) (absurd (by decide))

/-! ## Segments to their end: the completing render, and a release begun in DEAD -/

/-- The completing render of a segment that moves, from the run of a segment settled in O26 (40_env.md R136). -/
theorem iterate_render_completing (cfg : Config) (e : Env) {g next : Segment} (hmoves : e.inc g ≠ 0)
    (hnext : Segment.following g = some next) :
    ((Env.render cfg)^[ceilDiv (2 ^ 32) (e.inc g).toNat] (e.trigger g)).value = e.target g ∧
    ((Env.render cfg)^[ceilDiv (2 ^ 32) (e.inc g).toNat] (e.trigger g)).seg = next := by
  obtain ⟨hruns, -, -⟩ := envSegmentCompletionCount
  obtain ⟨-, hvalue, -, hseg⟩ := hruns cfg e g hmoves
  exact ⟨hvalue, Option.some.inj (hseg.trans hnext)⟩

/-- Between two equal ends a segment under way keeps its value. -/
theorem atPhase_value_of_flat (cfg : Config) {x : Env} {v : BitVec 16} (ha : x.a = v) (hb : x.b = v) (n : Nat) :
    (atPhase cfg x n).value = v := by
  rw [atPhase, ha, hb, mix16_self]

/-- A legal envelope in DEAD stands at its start value, which is 0. -/
theorem value_of_dead {e : Env} (hlegal : e.Legal) (hdead : e.seg = .dead) : e.value = 0 := by
  obtain ⟨-, hvalue⟩ := hlegal.holds (.inr hdead)
  obtain ⟨ha, -⟩ := hlegal.dead hdead
  rw [hvalue, ha]

/-! ## The obligation -/

/-- Settles O54: the command's effect, check 3 of R108 on its words, the flat release of a DEAD envelope up to its completing render, and
the rule's example, whose attack completes in render 4. -/
theorem gateOffReleasesAllEnvelopes : Obligations.GateOffReleasesAllEnvelopes := by
  refine ⟨fun s => ?effect, fun w s hopc hfields => ?rejected, fun cfg e hlegal hdead hmoves => ?fromDead, fun cfg e hinc => ?attack⟩
  case effect =>
    rw [← triggerAll_release]
    rfl
  case rejected =>
    refine issue_of_decodeOn_error (decodeOn_of_no_encoding ?_ ?_ (encode_ne_of_voxGateOff_fields hopc hfields)) s
    · rw [hopc]; decide
    · rw [hopc]; unfold tickOpcode; decide
  case fromDead =>
    have ha : (e.trigger .release).a = 0 := value_of_dead hlegal hdead
    have hb : (e.trigger .release).b = 0 := Env.trigger_b e .release
    refine ⟨ha, hb, fun k hk => ?underWay, ?completed⟩
    case underWay =>
      have hphase : k * (e.inc .release).toNat < 2 ^ 32 := (lt_ceilDiv_iff (BitVec.toNat_pos_of_ne_zero hmoves) k).1 hk
      rw [iterate_render_trigger cfg e .release hphase]
      exact ⟨rfl, atPhase_value_of_flat cfg ha hb _⟩
    case completed =>
      obtain ⟨hvalue, hseg⟩ := iterate_render_completing cfg e (g := .release) hmoves rfl
      exact ⟨hseg, hvalue⟩
  case attack =>
    have hattack : e.inc .attack = 0x40000000 := hinc
    have hcount : ceilDiv (2 ^ 32) (e.inc .attack).toNat = 4 := by rw [hattack]; decide
    obtain ⟨hvalue, hseg⟩ := iterate_render_completing cfg e (g := .attack) (by rw [hattack]; decide) rfl
    rw [hcount] at hvalue hseg
    refine ⟨hvalue, hseg, ?_, rfl⟩
    rw [trigger_release, hvalue]
    rfl

end Sys2Proof.Proofs.Voice
end

section
/-! PROOFS. The decoder and its ranges: decode is the inverse of encode, the operand ranges of 30_encoding.md R106, and the read-out of
46_sys.md R242. -/

namespace Sys2Proof.Proofs.Decoder

open Sys2Proof Sys2Proof.Machine Sys2Proof.Claims Sys2Proof.Proofs.Encoding

/-! ## Decode and encode -/

theorem decode_of_encode {i : Instr} {w : CommandWord} (hw : encode i = w) : decode w = .ok i := by
  subst hw
  obtain ⟨r, hrow, -, hmask, hcut⟩ := encodedWord i
  simp only [decode, hrow, Row.read, hmask, hcut, if_true]

/-- A row reads from a word only the command whose encoding that word is. -/
theorem encode_of_read {r : Row} {w : CommandWord} {i : Instr} (hrow : rowOf w = some r) (h : r.read w = .ok i) : encode i = w := by
  unfold Row.read at h
  split at h
  case isTrue hmask => cases h; exact encode_cut_of_masked hrow hmask
  case isFalse => cases h

theorem encode_of_decode {i : Instr} {w : CommandWord} (h : decode w = .ok i) : encode i = w := by
  unfold decode at h
  cases hrow : rowOf w with
  | none => rw [hrow] at h; cases h
  | some r => rw [hrow] at h; exact encode_of_read hrow h

/-- What a port decodes is the encoding of a command of that port (R102, R103). -/
theorem encode_of_decodeOn {p : Port} {i : Instr} {w : CommandWord} (h : decodeOn p w = .ok i) : encode i = w ∧ i.port = p := by
  unfold decodeOn at h
  cases hrow : rowOf w with
  | none => rw [hrow] at h; cases h
  | some r =>
    simp only [hrow] at h
    split at h
    case isTrue hport =>
      have hw := encode_of_read hrow h
      exact ⟨hw, port_eq_of_encode hw ((rowOf_port_eq_iff hrow p).1 hport)⟩
    case isFalse => cases h

/-- Settles O1: the row of a command's word reads it back, and a word that its row reads is the word of the command read. -/
theorem decodeAndEncodeAgree : Obligations.DecodeAndEncodeAgree := fun _ _ =>
  ⟨⟨encode_of_decode, decode_of_encode⟩, decodeOn_of_encode rfl rfl⟩

/-! ## The read-out address map (10_state.md section 10) -/

/-- Every register is found at its address. The registers that come in numbers are few enough to go through. -/
theorem regOfAddr_addrOf (r : Reg) : regOfAddr (BitVec.ofNat 16 (addrOf r)) = some r := by
  cases r
  case envSeg e | envPhase e | envValue e | envA e | envB e => revert e; decide
  case envInc e g | envTarget e g => cases g <;> revert e <;> decide
  case lfoPhase l | lfoInc l | lfoShape l | lfoCur l | lfoPrev l | lfoValue l | lfoLastph l => revert l; decide
  case clkDur i => revert i; decide
  case cvdOut c | cvdOverride c | cvdIn c => revert c; decide
  case cvdSlot k c => revert k c; decide
  case voxCtx o => revert o; decide
  all_goals rfl

/-- Settles O19: the decoder finds a register of the address asked for, and finds every register at its address. -/
theorem readOutAddressMap : Obligations.ReadOutAddressMap := by
  refine fun a r => ⟨regOfAddr_addr, fun h => ?found⟩
  case found => rw [← regOfAddr_addrOf r, h, BitVec.ofNat_toNat, BitVec.setWidth_eq]

theorem regOfAddr_isSome_iff (a : BitVec 16) : (regOfAddr a).isSome = true ↔ ∃ r, addrOf r = a.toNat := by
  rw [Option.isSome_iff_exists]
  exact exists_congr (readOutAddressMap a)

/-- Settles O18: no operation, and the read-out at an address that names a register and at one that names none. -/
theorem nopAndReadOutChangeNoRegister : Obligations.NopAndReadOutChangeNoRegister := by
  refine fun s => ⟨rfl, fun r => ?implemented, fun a h => ?unimplemented⟩
  case implemented =>
    change Host.Outcome.next (s.withOperand (regOfAddr _) _) = _
    rw [regOfAddr_addrOf, State.withOperand_some]
  case unimplemented =>
    exact congrArg Host.Outcome.next (withOperand_of_none (regOfAddr_eq_none fun ⟨r, hr⟩ => h r hr) s _)

/-! ## Operand ranges (30_encoding.md R106) -/

theorem envIndex_isSome_iff (e : BitVec 4) : (envIndex e).isSome = true ↔ e.toNat ≤ 2 := by
  rw [envIndex, Option.isSome_dite]
  exact Nat.lt_succ_iff

theorem lfoIndex_isSome_iff (l : BitVec 4) : (lfoIndex l).isSome = true ↔ l.toNat ≤ 1 := by
  rw [lfoIndex, Option.isSome_dite]
  exact Nat.lt_succ_iff

theorem channelIndex_isSome_iff (c : BitVec 4) : (channelIndex c).isSome = true ↔ c.toNat ≤ 3 := by
  rw [channelIndex, Option.isSome_dite]
  exact Nat.lt_succ_iff

theorem segment_ofCode_isSome_iff : ∀ x : BitVec 3, (Segment.ofCode x).isSome = true ↔ x.toNat ≤ 4 := by decide

theorem legalRes_isSome_iff (x : BitVec 8) : (legalRes x).isSome = true ↔ x.toNat = 1 ∨ x.toNat = 2 ∨ x.toNat = 6 := by
  have hnum (k : BitVec 8) : x = k ↔ x.toNat = k.toNat := BitVec.toNat_inj.symm
  simp only [legalRes, Option.isSome_ite, hnum]
  rfl

theorem legalUpdate_isSome_iff (cfg : Config) (bpm template : BitVec 8) :
    (legalUpdate cfg bpm template).isSome = true ↔ 1 ≤ bpm.toNat ∧ template.toNat ≤ cfg.nGroove - 1 := by
  obtain ⟨hpos, -⟩ := cfg.nGroove_range
  have hbpm : bpm ≠ 0 ↔ 1 ≤ bpm.toNat := by
    rw [Nat.one_le_iff_ne_zero]
    exact not_congr BitVec.toNat_inj.symm
  simp only [legalUpdate, Option.isSome_ite, hbpm]
  omega

/-- Settles O5: each kind of operand names something exactly in its range. -/
theorem wellFormedMeansOperandsInRange : Obligations.WellFormedMeansOperandsInRange := by
  intro i cfg
  cases i
  case sysRdreg a => exact regOfAddr_isSome_iff a
  case envInit e | envUpdate e _ _ _ _ | envRender e | envGate e => exact envIndex_isSome_iff e
  case envTrigger e g => exact Bool.and_eq_true_iff.trans (and_congr (envIndex_isSome_iff e) (segment_ofCode_isSome_iff g))
  case lfoInit l | lfoSetshape l _ | lfoSetinc l _ | lfoRender l | lfoSync l _ => exact lfoIndex_isSome_iff l
  case clkUpdate bpm template _ => exact legalUpdate_isSome_iff cfg bpm template
  case clkSetres res => exact legalRes_isSome_iff res
  case cvdSetin c _ => exact channelIndex_isSome_iff c
  all_goals exact iff_of_true rfl trivial

/-! ## What the read-out gives (46_sys.md R242) -/

theorem toNat_flagWord (b : Bool) : (flagWord b).toNat = flagNumber b := by cases b <;> rfl

theorem toNat_segment_code (g : Segment) : g.code.toNat = segmentNumber g := by cases g <;> rfl

theorem toNat_shape_code (sh : Shape) : sh.code.toNat = shapeNumber sh := by cases sh <;> rfl

/-- SYS.STATUS as the number its two flags make (10_state.md R24). -/
theorem toNat_status (y : Sys) : y.status.toNat = flagNumber y.err + 2 * flagNumber y.underrun := by
  unfold Sys.status
  cases y.err <;> cases y.underrun <;> rfl

theorem channel_eq_quadGet {α : Type} (q : Quad α) (c : Fin 4) : channel q c = quadGet q c := by
  fin_cases c <;> rfl

/-- A read-out is wide enough for every register. -/
theorem toNat_setWidth_result {n : Nat} (x : BitVec n) (h : n ≤ 48) : (x.setWidth 48).toNat = x.toNat := by
  rw [BitVec.toNat_setWidth, Nat.mod_eq_of_lt (lt_of_lt_of_le x.isLt (Nat.pow_le_pow_right (by decide) h))]

/-- A signed register modulo two to its width is its bit pattern. -/
theorem toInt_emod_two_pow {n : Nat} (x : BitVec n) : x.toInt % 2 ^ n = x.toNat := by
  rw [BitVec.toInt_eq_toNat_bmod, show (2 : Int) ^ n = (2 ^ n : Nat) by push_cast; rfl, Int.bmod_emod]
  exact Int.emod_eq_of_lt (Int.natCast_nonneg _) (Int.ofNat_lt.2 x.isLt)

/-- Every register reads as its number: flags and codes by their tables, signed registers as patterns, the rest as they are. -/
theorem toNat_readReg (s : State) (r : Reg) : (s.readReg r).toNat = registerNumber s r := by
  cases r
  case sysStatus => exact (toNat_setWidth_result _ (by decide)).trans (toNat_status s.sys)
  case envSeg e => exact (toNat_setWidth_result _ (by decide)).trans (toNat_segment_code _)
  case lfoShape l => exact (toNat_setWidth_result _ (by decide)).trans (toNat_shape_code _)
  case cvdLocked | voxRetrig | voxAccent | voxLegatoMode => exact toNat_flagWord _
  case envInc e g | envTarget e g => cases g <;> exact toNat_setWidth_result _ (by decide)
  case cvdOut c | cvdOverride c => rw [registerNumber, channel_eq_quadGet]; exact toNat_setWidth_result _ (by decide)
  case cvdSlot k c => rw [registerNumber, channel_eq_quadGet]; exact toNat_setWidth_result _ (by decide)
  case cvdOffset =>
    have hpattern := toInt_emod_two_pow s.cvd.offset
    rw [registerNumber, show (65536 : Int) = 2 ^ 16 by decide, hpattern]
    exact toNat_setWidth_result _ (by decide)
  case cvdIn c =>
    have hpattern := toInt_emod_two_pow (quadGet s.cvd.input c)
    rw [registerNumber, channel_eq_quadGet, show (4294967296 : Int) = 2 ^ 32 by decide, hpattern]
    exact toNat_setWidth_result _ (by decide)
  all_goals exact toNat_setWidth_result _ (by decide)

/-- Settles O20: the number of every register, and the registers that are not stored as they read. -/
theorem readOutOfComputedRegisters : Obligations.ReadOutOfComputedRegisters := by
  intro s e c
  refine ⟨toNat_readReg s, ?status, rfl, rfl, rfl, rfl, rfl, rfl, ?offset, ?input⟩
  case status =>
    rw [toNat_readReg, registerNumber]
    cases s.sys.err <;> cases s.sys.underrun <;> rfl
  case offset =>
    rw [State.readReg, toNat_setWidth_result _ (by decide)]
    exact (toInt_emod_two_pow _).symm
  case input =>
    rw [State.readReg, toNat_setWidth_result _ (by decide)]
    exact (toInt_emod_two_pow _).symm

end Sys2Proof.Proofs.Decoder
end

section
/-! PROOFS. What a command and a step can do, said once: the effect of every command past its checks, the turns of the commands in
progress, and the step that is made of them. The statements about every step are derived from these. -/

namespace Sys2Proof.Proofs.Steps

open Sys2Proof Sys2Proof.Machine Sys2Proof.Claims Sys2Proof.Proofs.Encoding Sys2Proof.Proofs.Decoder

/-! ## What a command does past its checks -/

/-- All that a command can do to one envelope. -/
inductive EnvMove (e : Env) : Env → Prop
  | stay : EnvMove e e
  | init : EnvMove e e.init
  | update (attack decay sustain release : BitVec 8) : EnvMove e (e.update config attack decay sustain release)
  | trigger (g : Segment) : EnvMove e (e.trigger g)
  | render : EnvMove e (e.render config)

/-- The ring registers of `d` are those of `c`: both indices, the output and the slots. -/
def SameRing (c d : Cvd) : Prop := d.wptr = c.wptr ∧ d.rptr = c.rptr ∧ d.out = c.out ∧ d.slot = c.slot

/-- The effect of a command that passes its checks, by the units it reaches. -/
inductive Effect (s : State) : Instr → State → Prop
  /-- a command that reaches only the sources of a sample: envelopes, LFOs, glide and voice registers, or nothing -/
  | sources {i : Instr} {env : Vector Env nEnv} {lfo : Vector Lfo nLfo} {gld : Gld} {vox : Vox} (r : ResultWord)
      (hport : i.port = .C) (henv : ∀ e : Fin nEnv, EnvMove s.env[e] env[e]) :
      Effect s i (State.reply { s with env := env, lfo := lfo, gld := gld, vox := vox } .C r)
  | lfoRender (l : BitVec 4) (lfo : Vector Lfo nLfo) (rng : Rng) (r : ResultWord) :
      Effect s (.lfoRender l) (State.reply { s with lfo := lfo, rng := rng } .C r)
  | sysReset : Effect s .sysReset (s.sysReset.reply .C 0)
  | clkInit : Effect s .clkInit (State.reply { s with clk := s.clk.init } .C 0)
  | clkUpdate {bpm template : BitVec 8} (amount : BitVec 8) (hlegal : legalUpdate config bpm template = some ()) :
      Effect s (.clkUpdate bpm template amount) { s with clk := s.clk.beginUpdate config bpm template amount, ctl := .clkUpdate 1 }
  | clkSetres {res r : BitVec 8} (hlegal : legalRes res = some r) :
      Effect s (.clkSetres res) (State.reply { s with clk := { s.clk with res := r } } .C 0)
  | clkTick : Effect s .clkTick (State.reply { s with clk := s.clk.tick } .T 0)
  | clkCount : Effect s .clkCount { s with clk := { s.clk with events := 0 }, ctl := .clkCount s.clk.events }
  | cvdInit : Effect s .cvdInit (State.reply { s with cvd := s.cvd.init } .C 0)
  | cvdSetUp {i : Instr} {c : Cvd} (hport : i.port = .C) (hring : SameRing s.cvd c) :
      Effect s i (State.reply { s with cvd := c } .C 0)
  | cvdWrite (hroom : s.cvd.writable ≠ 0) : Effect s .cvdWrite (State.reply { s with cvd := s.cvd.write config } .C 0)
  | cvdRead : Effect s .cvdRead (State.reply
      { s with cvd := s.cvd.read, sys := { s.sys with underrun := s.sys.underrun || s.cvd.underruns } } .T (pack s.cvd.read.out))
  | voxSample (hroom : s.cvd.writable ≠ 0) (r : ResultWord) : Effect s .voxSample ((s.sample config).reply .C r)
  | voxRefresh : Effect s .voxRefresh (s.refreshTurn config 0)

/-- All a command performed at `s` can leave: a rejection by its own checks, or its effect. -/
def Outcome (s : State) (i : Instr) (t : State) : Prop := (∃ k, t = s.reject i.port k) ∨ Effect s i t

/-- Check 4 of R108 in the outcome of a command. -/
theorem outcome_withOperand {α : Type} {s : State} {i : Instr} {x : Option α} {f : α → State} (hport : i.port = .C)
    (h : ∀ a, x = some a → Outcome s i (f a)) : Outcome s i (s.withOperand x f) := by
  rcases State.withOperand_cases s x f with ⟨a, ha, heq⟩ | ⟨-, heq⟩ <;> rw [heq]
  · exact h a ha
  · exact .inl ⟨.reservedOperand, by rw [hport]⟩

/-- One envelope replaced: the others stay. -/
theorem envMove_set {v : Vector Env nEnv} {k : Fin nEnv} {x : Env} (h : EnvMove v[k] x) (e : Fin nEnv) :
    EnvMove v[e] (v.set k x)[e] := by
  by_cases hk : k = e
  · subst hk
    simpa using h
  · have hne : (k : Nat) ≠ e := fun h => hk (Fin.ext h)
    have hother : (v.set k x)[e] = v[e] := by simp [hne]
    rw [hother]
    exact .stay

theorem envMove_mapAll {v : Vector Env nEnv} {f : Env → Env} (h : ∀ x, EnvMove x (f x)) (e : Fin nEnv) :
    EnvMove v[e] (mapAll f v)[e] := by
  simpa using h v[e]

/-- A command that leaves the envelopes alone. -/
theorem outcome_of_quiet {s : State} {i : Instr} {lfo : Vector Lfo nLfo} {gld : Gld} {vox : Vox} (r : ResultWord) (hport : i.port = .C) :
    Outcome s i (State.reply { s with lfo := lfo, gld := gld, vox := vox } .C r) :=
  .inr (.sources r hport fun _ => .stay)

/-- A command that sets one envelope. -/
theorem outcome_of_setEnv {s : State} {i : Instr} {k : Fin nEnv} {x : Env} (r : ResultWord) (hport : i.port = .C)
    (hx : EnvMove s.env[k] x) : Outcome s i ((s.setEnv k x).reply .C r) :=
  .inr (.sources r hport (envMove_set hx))

/-- A command that moves every envelope. -/
theorem outcome_of_mapEnv {s : State} {i : Instr} {f : Env → Env} {gld : Gld} {vox : Vox} (r : ResultWord) (hport : i.port = .C)
    (hf : ∀ x, EnvMove x (f x)) : Outcome s i (State.reply { s with env := mapAll f s.env, gld := gld, vox := vox } .C r) :=
  .inr (.sources r hport (envMove_mapAll hf))

/-- The command table in one place: every command rejects by check 4 or 5, or has its effect. -/
theorem exec_outcome {i : Instr} {s t : State} (h : exec i s = .next t) : Outcome s i t := by
  cases i <;> cases h
  case sysNop | cvdReadable | cvdWritable => exact outcome_of_quiet _ rfl
  case gldInit | gldSetinc | gldStart | gldRender | voxInit | voxSetctx | voxSetlegato | voxRdretrig => exact outcome_of_quiet _ rfl
  case sysRdreg | envGate => exact outcome_withOperand rfl fun _ _ => outcome_of_quiet _ rfl
  case envInit => exact outcome_withOperand rfl fun _ _ => outcome_of_setEnv _ rfl .init
  case envUpdate => exact outcome_withOperand rfl fun _ _ => outcome_of_setEnv _ rfl (.update _ _ _ _)
  case envTrigger =>
    exact outcome_withOperand rfl fun _ _ => outcome_withOperand rfl fun g _ => outcome_of_setEnv _ rfl (.trigger g)
  case envRender => exact outcome_withOperand rfl fun _ _ => outcome_of_setEnv _ rfl .render
  case lfoInit | lfoSetshape | lfoSetinc | lfoSync => exact outcome_withOperand rfl fun _ _ => outcome_of_quiet _ rfl
  case lfoRender => exact outcome_withOperand rfl fun _ _ => .inr (.lfoRender _ _ _ _)
  case sysReset => exact .inr .sysReset
  case clkInit => exact .inr .clkInit
  case clkUpdate => exact outcome_withOperand rfl fun _ hlegal => .inr (.clkUpdate _ hlegal)
  case clkSetres => exact outcome_withOperand rfl fun _ hlegal => .inr (.clkSetres hlegal)
  case clkTick => exact .inr .clkTick
  case clkCount => exact .inr .clkCount
  case cvdInit => exact .inr .cvdInit
  case cvdSetcal | cvdLock | cvdUnlock => exact .inr (.cvdSetUp rfl ⟨rfl, rfl, rfl, rfl⟩)
  case cvdSetin => exact outcome_withOperand rfl fun _ _ => .inr (.cvdSetUp rfl ⟨rfl, rfl, rfl, rfl⟩)
  case cvdWrite =>
    split
    case isTrue => exact .inl ⟨.ringFull, rfl⟩
    case isFalse hroom => exact .inr (.cvdWrite hroom)
  case cvdRead => exact .inr .cvdRead
  case voxGateOn => exact outcome_of_mapEnv _ rfl fun _ => .trigger .attack
  case voxGateOff => exact outcome_of_mapEnv _ rfl fun _ => .trigger .release
  case voxNoteOn =>
    unfold State.noteOn
    split
    case isTrue => exact outcome_of_quiet _ rfl
    case isFalse => exact outcome_of_mapEnv _ rfl fun _ => .trigger .attack
  case voxSample =>
    split
    case isTrue => exact .inl ⟨.ringFull, rfl⟩
    case isFalse hroom => exact .inr (.voxSample hroom _)
  case voxRefresh => exact .inr .voxRefresh

/-! ## The later turns of a command in progress (60_exceptions.md R277) -/

/-- A later step of CLK.UPDATE ends the command with entry 15, and else goes on. -/
theorem continueClkUpdate_cases (cfg : Config) (s : State) (i : BitVec 4) :
    (i = 15 ∧ s.continueClkUpdate cfg i = State.reply { s with clk := s.clk.writeDuration cfg i, ctl := .idle } .C 0) ∨
    (i ≠ 15 ∧ s.continueClkUpdate cfg i = { s with clk := s.clk.writeDuration cfg i, ctl := .clkUpdate (i + 1) }) := by
  by_cases h : i = 15
  · exact .inl ⟨h, if_pos h⟩
  · exact .inr ⟨h, if_neg h⟩

/-- A turn of VOX.REFRESH ends the command where the ring is full, and else writes one sample. -/
theorem refreshTurn_cases (cfg : Config) (s : State) (n : Nat) :
    (s.cvd.writable = 0 ∧ s.refreshTurn cfg n = State.reply { s with ctl := .idle } .C (BitVec.ofNat 48 n)) ∨
    (s.cvd.writable ≠ 0 ∧ s.refreshTurn cfg n = { s.sample cfg with ctl := .voxRefresh (n + 1) }) := by
  by_cases h : s.cvd.writable = 0
  · exact .inl ⟨h, if_pos h⟩
  · exact .inr ⟨h, if_neg h⟩

/-! What each turn leaves unchanged, however it ends. -/

@[simp] theorem continueClkUpdate_sys (cfg : Config) (s : State) (i : BitVec 4) : (s.continueClkUpdate cfg i).sys = s.sys := by
  rcases continueClkUpdate_cases cfg s i with ⟨-, heq⟩ | ⟨-, heq⟩ <;> exact (congrArg State.sys heq).trans rfl

@[simp] theorem continueClkUpdate_clk (cfg : Config) (s : State) (i : BitVec 4) :
    (s.continueClkUpdate cfg i).clk = s.clk.writeDuration cfg i := by
  rcases continueClkUpdate_cases cfg s i with ⟨-, heq⟩ | ⟨-, heq⟩ <;> exact (congrArg State.clk heq).trans rfl

@[simp] theorem continueClkUpdate_cvd (cfg : Config) (s : State) (i : BitVec 4) : (s.continueClkUpdate cfg i).cvd = s.cvd := by
  rcases continueClkUpdate_cases cfg s i with ⟨-, heq⟩ | ⟨-, heq⟩ <;> exact (congrArg State.cvd heq).trans rfl

@[simp] theorem continueClkUpdate_rng (cfg : Config) (s : State) (i : BitVec 4) : (s.continueClkUpdate cfg i).rng = s.rng := by
  rcases continueClkUpdate_cases cfg s i with ⟨-, heq⟩ | ⟨-, heq⟩ <;> exact (congrArg State.rng heq).trans rfl

@[simp] theorem refreshTurn_sys (cfg : Config) (s : State) (n : Nat) : (s.refreshTurn cfg n).sys = s.sys := by
  rcases refreshTurn_cases cfg s n with ⟨-, heq⟩ | ⟨-, heq⟩ <;> exact (congrArg State.sys heq).trans rfl

@[simp] theorem refreshTurn_clk (cfg : Config) (s : State) (n : Nat) : (s.refreshTurn cfg n).clk = s.clk := by
  rcases refreshTurn_cases cfg s n with ⟨-, heq⟩ | ⟨-, heq⟩ <;> exact (congrArg State.clk heq).trans rfl

/-- A later step of the command in progress on port C. -/
inductive Turn (s : State) : State → Prop
  | clkCount {n : BitVec 8} (hctl : s.ctl = .clkCount n) : Turn s (s.finishClkCount n)
  | clkUpdate {i : BitVec 4} (hctl : s.ctl = .clkUpdate i) : Turn s (s.continueClkUpdate config i)
  | voxRefresh {n : Nat} (hctl : s.ctl = .voxRefresh n) : Turn s (s.refreshTurn config n)

theorem turn_continueC {s : State} (h : s.ctl ≠ .idle) : Turn s (s.continueC config) := by
  unfold State.continueC
  cases hctl : s.ctl with
  | idle => exact absurd hctl h
  | clkCount n => exact .clkCount hctl
  | clkUpdate i => exact .clkUpdate hctl
  | voxRefresh n => exact .voxRefresh hctl

/-! ## One step -/

/-- All a step can be. A word that is taken is taken on the active port; a rejection is by any of the five checks. -/
inductive StepKind (s t : State) : Prop
  | performs {p : Port} {w : CommandWord} {i : Instr} (hcoming : s.coming = some (p, w)) (hactive : s.activePort = p)
      (hi : s.Performs i) (hport : i.port = p) (heffect : Effect (s.consumeSchedule.take p) i t)
  | rejects {p : Port} {w : CommandWord} {k : Reject} (hcoming : s.coming = some (p, w)) (hactive : s.activePort = p)
      (ht : t = (s.consumeSchedule.take p).reject p k)
  | continues (hcoming : s.coming = none) (hactive : s.activePort = .C) (hturn : Turn s.consumeSchedule t)
  | idles (hcoming : s.coming = none) (ht : t = s.consumeSchedule)

theorem step_kind {s t : State} (h : step s = .next t) : StepKind s t := by
  rcases step_cases h with ⟨p, w, hcoming, hactive, hissue⟩ | ⟨hcoming, hactive, hctl, rfl⟩ | ⟨hcoming, -, rfl⟩
  · rcases issue_cases hissue with ⟨k, -, ht⟩ | ⟨i, hdecode, hexec⟩
    · exact .rejects hcoming hactive ht
    · obtain ⟨-, hport⟩ := encode_of_decodeOn hdecode
      rcases exec_outcome hexec with ⟨k, ht⟩ | heffect
      · exact .rejects hcoming hactive (hport ▸ ht)
      · exact .performs hcoming hactive ⟨p, w, hcoming, hdecode⟩ hport heffect
  · exact .continues hcoming hactive (turn_continueC hctl)
  · exact .idles hcoming rfl

/-- The command performed is one of the active port. -/
theorem port_of_performs {s : State} {i : Instr} (h : s.Performs i) : i.port = s.activePort := by
  obtain ⟨p, w, hcoming, hdecode⟩ := h
  obtain ⟨hactive, -, -⟩ := coming_head hcoming
  obtain ⟨-, hport⟩ := encode_of_decodeOn hdecode
  rw [hport, hactive]

/-! What taking a word and rejecting it leave unchanged, on either port. -/

@[simp] theorem take_sys (s : State) (p : Port) : (s.take p).sys = s.sys := by cases p <;> rfl
@[simp] theorem take_env (s : State) (p : Port) : (s.take p).env = s.env := by cases p <;> rfl
@[simp] theorem take_clk (s : State) (p : Port) : (s.take p).clk = s.clk := by cases p <;> rfl
@[simp] theorem take_cvd (s : State) (p : Port) : (s.take p).cvd = s.cvd := by cases p <;> rfl
@[simp] theorem take_rng (s : State) (p : Port) : (s.take p).rng = s.rng := by cases p <;> rfl
@[simp] theorem take_ctl (s : State) (p : Port) : (s.take p).ctl = s.ctl := by cases p <;> rfl
@[simp] theorem reject_sys (s : State) (p : Port) (k : Reject) : (s.reject p k).sys = s.sys.recordReject k := by cases p <;> rfl
@[simp] theorem reject_env (s : State) (p : Port) (k : Reject) : (s.reject p k).env = s.env := by cases p <;> rfl
@[simp] theorem reject_clk (s : State) (p : Port) (k : Reject) : (s.reject p k).clk = s.clk := by cases p <;> rfl
@[simp] theorem reject_cvd (s : State) (p : Port) (k : Reject) : (s.reject p k).cvd = s.cvd := by cases p <;> rfl
@[simp] theorem reject_rng (s : State) (p : Port) (k : Reject) : (s.reject p k).rng = s.rng := by cases p <;> rfl
@[simp] theorem reject_ctl (s : State) (p : Port) (k : Reject) : (s.reject p k).ctl = s.ctl := by cases p <;> rfl

end Sys2Proof.Proofs.Steps
end

section
/-! PROOFS. The ring over every step: a bounded queue with one writer for each index (44_cvdac.md R211; 20_memory.md R83). -/

namespace Sys2Proof.Proofs.Ring

open Sys2Proof Sys2Proof.Machine Sys2Proof.Claims Sys2Proof.Proofs.Steps

/-! ## What a step can do to the ring -/

theorem sameRing_refl (c : Cvd) : SameRing c c := ⟨rfl, rfl, rfl, rfl⟩

theorem ring_sample (s : State) : ∃ x, (s.sample config).cvd = Cvd.write config { s.cvd with input := x } := ⟨_, rfl⟩

/-- The ring after a command's effect: as it was, emptied, read, or with one sample written where there was room. -/
theorem effect_ring {s t : State} {i : Instr} (h : Effect s i t) :
    SameRing s.cvd t.cvd ∨ ((i = .cvdInit ∨ i = .sysReset) ∧ t.cvd = s.cvd.init) ∨ (i = .cvdRead ∧ t.cvd = s.cvd.read) ∨
    (i.port = .C ∧ s.cvd.writable ≠ 0 ∧ ∃ x, t.cvd = Cvd.write config { s.cvd with input := x }) := by
  cases h with
  | sources | lfoRender | clkInit | clkUpdate | clkSetres | clkTick | clkCount => exact .inl (sameRing_refl _)
  | cvdSetUp _ hring => exact .inl hring
  | sysReset => exact .inr (.inl ⟨.inr rfl, rfl⟩)
  | cvdInit => exact .inr (.inl ⟨.inl rfl, rfl⟩)
  | cvdRead => exact .inr (.inr (.inl ⟨rfl, rfl⟩))
  | cvdWrite hroom => exact .inr (.inr (.inr ⟨rfl, hroom, s.cvd.input, rfl⟩))
  | voxSample hroom => exact .inr (.inr (.inr ⟨rfl, hroom, ring_sample s⟩))
  | voxRefresh =>
    rcases refreshTurn_cases config s 0 with ⟨-, heq⟩ | ⟨hroom, heq⟩ <;> rw [heq]
    · exact .inl (sameRing_refl _)
    · exact .inr (.inr (.inr ⟨rfl, hroom, ring_sample s⟩))

theorem turn_ring {s t : State} (h : Turn s t) :
    SameRing s.cvd t.cvd ∨ (s.cvd.writable ≠ 0 ∧ ∃ x, t.cvd = Cvd.write config { s.cvd with input := x }) := by
  cases h with
  | clkCount => exact .inl (sameRing_refl _)
  | clkUpdate => rw [continueClkUpdate_cvd]; exact .inl (sameRing_refl _)
  | @voxRefresh n =>
    rcases refreshTurn_cases config s n with ⟨-, heq⟩ | ⟨hroom, heq⟩ <;> rw [heq]
    · exact .inl (sameRing_refl _)
    · exact .inr ⟨hroom, ring_sample s⟩

/-- The ring over a step: only a command of port C writes a sample, only CVD.READ reads one. -/
theorem step_ring {s t : State} (h : step s = .next t) :
    SameRing s.cvd t.cvd ∨ ((s.Performs .cvdInit ∨ s.Performs .sysReset) ∧ t.cvd = s.cvd.init) ∨
    (s.Performs .cvdRead ∧ t.cvd = s.cvd.read) ∨
    (s.activePort = .C ∧ s.cvd.writable ≠ 0 ∧ ∃ x, t.cvd = Cvd.write config { s.cvd with input := x }) := by
  cases step_kind h with
  | performs _ _ hi _ heffect =>
    have hring := effect_ring heffect
    rw [take_cvd, State.consumeSchedule_cvd] at hring
    rcases hring with hsame | ⟨rfl | rfl, heq⟩ | ⟨rfl, heq⟩ | ⟨hC, hroom, hwrite⟩
    · exact .inl hsame
    · exact .inr (.inl ⟨.inl hi, heq⟩)
    · exact .inr (.inl ⟨.inr hi, heq⟩)
    · exact .inr (.inr (.inl ⟨hi, heq⟩))
    · exact .inr (.inr (.inr ⟨(port_of_performs hi).symm.trans hC, hroom, hwrite⟩))
  | rejects _ _ ht => subst ht; exact .inl (by simpa using sameRing_refl s.cvd)
  | continues _ hactive hturn =>
    rcases turn_ring hturn with hsame | hwrite
    · exact .inl hsame
    · exact .inr (.inr (.inr ⟨hactive, hwrite⟩))
  | idles _ ht => subst ht; exact .inl (sameRing_refl _)

/-- Settles O13: a read moves the read index and the output only, a write the write index and a slot only. -/
theorem eachRingIndexHasOneWriter : Obligations.EachRingIndexHasOneWriter := by
  intro s t h
  rcases step_ring h with ⟨hwptr, hrptr, hout, hslot⟩ | ⟨hinit, -⟩ | ⟨hread, heq⟩ | ⟨hactive, -, x, heq⟩
  · exact ⟨fun _ => ⟨hwptr, hslot⟩, fun _ _ _ => ⟨hrptr, hout⟩⟩
  · have hC : s.activePort = .C := hinit.elim (fun hi => (port_of_performs hi).symm) (fun hi => (port_of_performs hi).symm)
    exact ⟨fun hT => (by rw [hC] at hT; cases hT), fun _ hnoInit hnoReset => (hinit.elim hnoInit hnoReset).elim⟩
  · have hT : s.activePort = .T := (port_of_performs hread).symm
    refine ⟨fun _ => ?_, fun hC => (by rw [hT] at hC; cases hC)⟩
    rw [heq]
    rcases Cvd.read_cases s.cvd with ⟨-, hr⟩ | ⟨-, -, hr⟩ | ⟨-, -, hr⟩ <;> rw [hr] <;> exact ⟨rfl, rfl⟩
  · exact ⟨fun hT => (by rw [hactive] at hT; cases hT), fun _ _ _ => by rw [heq]; exact ⟨rfl, rfl⟩⟩

/-! ## The queue of waiting samples -/

theorem slotsFrom_length (c : Cvd) (k : BitVec 2) (n : Nat) : (c.slotsFrom k n).length = n := by
  induction n generalizing k with
  | zero => rfl
  | succ n ih => rw [Cvd.slotsFrom, List.length_cons, ih]

theorem waiting_length (c : Cvd) : c.waiting.length = c.readable.toNat := slotsFrom_length c _ _

/-- One slot more at the end of the run. -/
theorem slotsFrom_succ_last (c : Cvd) (k : BitVec 2) (n : Nat) :
    c.slotsFrom k (n + 1) = c.slotsFrom k n ++ [c.slot[(k + BitVec.ofNat 2 n).toNat]] := by
  induction n generalizing k with
  | zero => simp [Cvd.slotsFrom]
  | succ n ih =>
    have hk : k + 1 + BitVec.ofNat 2 n = k + BitVec.ofNat 2 (n + 1) := by
      rw [BitVec.ofNat_add, BitVec.add_assoc, BitVec.add_comm 1]; rfl
    rw [Cvd.slotsFrom, ih]
    simp only [Cvd.slotsFrom, List.cons_append, hk]

/-- The run depends on its own slots only. -/
theorem slotsFrom_congr {c d : Cvd} {k : BitVec 2} {n : Nat}
    (h : ∀ j < n, d.slot[(k + BitVec.ofNat 2 j).toNat] = c.slot[(k + BitVec.ofNat 2 j).toNat]) :
    d.slotsFrom k n = c.slotsFrom k n := by
  induction n with
  | zero => rfl
  | succ n ih => rw [slotsFrom_succ_last, slotsFrom_succ_last, ih fun j hj => h j (by omega), h n (by omega)]

theorem waiting_of_sameRing {c d : Cvd} (h : SameRing c d) : d.waiting = c.waiting := by
  obtain ⟨hwptr, hrptr, -, hslot⟩ := h
  unfold Cvd.waiting Cvd.readable
  rw [hwptr, hrptr]
  exact slotsFrom_congr fun j _ => by simp only [hslot]

theorem waiting_init (c : Cvd) : c.init.waiting = [] :=
  List.eq_nil_of_length_eq_zero ((waiting_length c.init).trans (show (0 - 0 : BitVec 2).toNat = 0 by decide))

/-- A full ring is one with three samples waiting (44_cvdac.md R211). -/
theorem readable_lt_three {c : Cvd} (hroom : c.writable ≠ 0) : c.readable.toNat < 3 := by
  unfold Cvd.writable at hroom
  unfold Cvd.readable
  bv_omega

/-- The slot a write fills is behind the samples that wait, so the write appends. -/
theorem waiting_write {c : Cvd} (hroom : c.writable ≠ 0) (cfg : Config) :
    (c.write cfg).waiting = c.waiting ++ [c.sampleOf cfg] := by
  have hlt := readable_lt_three hroom
  have hcount : (c.write cfg).readable.toNat = c.readable.toNat + 1 := by
    unfold Cvd.readable at hlt ⊢
    rw [Cvd.write_wptr, Cvd.write_rptr]
    bv_omega
  have hlast : c.rptr + BitVec.ofNat 2 c.readable.toNat = c.wptr := by
    unfold Cvd.readable
    bv_omega
  have hbefore : (c.write cfg).slotsFrom c.rptr c.readable.toNat = c.slotsFrom c.rptr c.readable.toNat := by
    refine slotsFrom_congr fun j hj => ?_
    have hne : c.wptr.toNat ≠ (c.rptr + BitVec.ofNat 2 j).toNat := by
      unfold Cvd.readable at hj hlt
      bv_omega
    simp only [Cvd.write_slot, Vector.getElem_set, if_neg hne]
  have hfilled : (c.write cfg).slot[(c.rptr + BitVec.ofNat 2 c.readable.toNat).toNat] = c.sampleOf cfg := by
    simp only [hlast, Cvd.write_slot, Vector.getElem_set_self]
  unfold Cvd.waiting
  rw [hcount, slotsFrom_succ_last, Cvd.write_rptr, hbefore, hfilled]

/-- A read that finds a sample takes the first of the queue to the output. -/
theorem waiting_eq_cons {c : Cvd} (h : c.readable ≠ 0) :
    c.waiting = c.slot[c.rptr.toNat] :: ({ c with out := c.slot[c.rptr.toNat], rptr := c.rptr + 1 } : Cvd).waiting := by
  have hcount : c.readable.toNat = (c.wptr - (c.rptr + 1)).toNat + 1 := by
    unfold Cvd.readable at h ⊢
    bv_omega
  unfold Cvd.waiting
  rw [hcount, Cvd.slotsFrom]
  exact congrArg _ (slotsFrom_congr fun _ _ => rfl)

/-- Settles O51: the queue over each of the moves of the ring. -/
theorem ringIsABoundedQueue : Obligations.RingIsABoundedQueue := by
  refine fun s t h => ⟨waiting_length s.cvd, ?_⟩
  rcases step_ring h with hsame | ⟨hinit, heq⟩ | ⟨hread, heq⟩ | ⟨hactive, hroom, x, heq⟩
  · exact .inl (waiting_of_sameRing hsame)
  · exact .inr (.inr (.inr ⟨by rw [heq, waiting_init], hinit⟩))
  · rcases Cvd.read_cases s.cvd with ⟨-, hr⟩ | ⟨-, -, hr⟩ | ⟨-, hsome, hr⟩ <;> rw [heq, hr]
    · exact .inl (slotsFrom_congr fun _ _ => rfl)
    · exact .inl rfl
    · exact .inr (.inr (.inl ⟨_, waiting_eq_cons hsome, rfl, hread⟩))
  · have happend := waiting_write (c := { s.cvd with input := x }) hroom config
    have hsame : Cvd.waiting { s.cvd with input := x } = s.cvd.waiting := waiting_of_sameRing ⟨rfl, rfl, rfl, rfl⟩
    rw [hsame, ← heq] at happend
    have hlt : s.cvd.waiting.length < 3 := (waiting_length s.cvd).trans_lt (readable_lt_three hroom)
    exact .inr (.inl ⟨_, happend, hlt, hactive⟩)

end Sys2Proof.Proofs.Ring
end

section
/-! PROOFS. The invariants of the registers (10_state.md; 40_env.md): they hold at power-on and every step keeps them. -/

namespace Sys2Proof.Proofs.Invariants

open Sys2Proof Sys2Proof.Machine Sys2Proof.Claims Sys2Proof.Proofs.Envelope Sys2Proof.Proofs.Steps

/-! ## Envelopes -/

theorem mix16_between (a b c : BitVec 16) :
    min a.toNat b.toNat ≤ (mix16 a b c).toNat ∧ (mix16 a b c).toNat ≤ max a.toNat b.toNat := by
  rcases Nat.le_total a.toNat b.toNat with h | h
  · exact ⟨(min_le_left _ _).trans (start_le_mix16 h c), le_max_of_le_right (mix16_le_target h c)⟩
  · exact ⟨(min_le_right _ _).trans (target_le_mix16 h c), le_max_of_le_left (mix16_le_start h c)⟩

theorem legal_env_init (e : Env) : e.init.Legal where
  holds := fun _ => ⟨rfl, rfl⟩
  attack := fun h => by cases h
  release := fun h => by cases h
  dead := fun _ => ⟨rfl, rfl⟩
  between := ⟨Nat.zero_le _, Nat.zero_le _⟩

/-- A trigger makes any envelope legal (40_env.md R133). -/
theorem legal_trigger (e : Env) (g : Segment) : (e.trigger g).Legal where
  holds := fun _ => ⟨rfl, rfl⟩
  attack := fun h => by cases h; exact ⟨rfl, rfl⟩
  release := fun h => by cases h; rfl
  dead := fun h => by cases h; exact ⟨rfl, rfl⟩
  between := ⟨min_le_left _ _, le_max_left _ _⟩

/-- No invariant of an envelope speaks of what ENV.UPDATE writes. -/
theorem legal_update {e : Env} (h : e.Legal) (cfg : Config) (attack decay sustain release : BitVec 8) :
    (e.update cfg attack decay sustain release).Legal :=
  ⟨h.holds, h.attack, h.release, h.dead, h.between⟩

/-- In SUSTAIN and DEAD the increment is 0, so a legal envelope stays as it is (40_env.md R138). -/
theorem render_of_holding {e : Env} (h : e.Legal) (hseg : e.seg = .sustain ∨ e.seg = .dead) (cfg : Config) : e.render cfg = e := by
  obtain ⟨hphase, hvalue⟩ := h.holds hseg
  have hinc : e.inc e.seg = 0 := by rcases hseg with hg | hg <;> rw [hg] <;> rfl
  rcases Env.render_cases cfg e with ⟨-, heq⟩ | ⟨hover, -⟩
  · have hph : e.phase + e.inc e.seg = 0 := by rw [hphase, hinc]; rfl
    have hmix : mix16 e.a e.b (cfg.envCurve (BitVec.extractLsb' 24 8 (0 : BitVec 32))) = e.value := by
      rw [show BitVec.extractLsb' 24 8 (0 : BitVec 32) = 0 by decide, cfg.envCurve_zero, mix16_zero, hvalue]
    rw [heq, hph, hmix, ← hphase]
  · rw [hinc, hphase] at hover
    exact absurd hover (by decide)

/-- The completing render of a segment that moves enters the next one by a trigger. -/
theorem legal_complete {e : Env} (hseg : ¬ (e.seg = .sustain ∨ e.seg = .dead)) : e.complete.Legal := by
  unfold Env.complete
  cases hg : e.seg with
  | attack | decay | release => exact legal_trigger _ _
  | sustain => exact absurd (.inl hg) hseg
  | dead => exact absurd (.inr hg) hseg

/-- A render keeps a legal envelope legal: it holds, moves between its ends, or enters the next segment. -/
theorem legal_render {e : Env} (h : e.Legal) (cfg : Config) : (e.render cfg).Legal := by
  by_cases hseg : e.seg = .sustain ∨ e.seg = .dead
  · rw [render_of_holding h hseg]; exact h
  · rcases Env.render_cases cfg e with ⟨-, heq⟩ | ⟨-, heq⟩ <;> rw [heq]
    · exact ⟨fun hg => absurd hg hseg, h.attack, h.release, h.dead, mix16_between _ _ _⟩
    · exact legal_complete hseg

theorem legal_envMove {e x : Env} (hmove : EnvMove e x) (h : e.Legal) : x.Legal := by
  cases hmove with
  | stay => exact h
  | init => exact legal_env_init e
  | update a d s r => exact legal_update h config a d s r
  | trigger g => exact legal_trigger e g
  | render => exact legal_render h config

/-! ## The clock -/

/-- A duration is clamped to 1 .. 65535 (42_clk.md R172). -/
theorem stepDuration_pos (cfg : Config) (template amount : BitVec 8) (base : BitVec 16) (i : BitVec 4) :
    1 ≤ (stepDuration cfg template amount base i).toNat := by
  unfold stepDuration
  have hclamp := clamp_mem (show (1 : Int) ≤ 65535 by decide)
    (base.toNat + asr ((cfg.grooveLut template i).toInt * amount.toNat * base.toNat) 16)
  rw [BitVec.toNat_ofInt]
  omega

theorem legal_writeDuration {cfg : Config} {c : Clk} (h : c.Legal cfg) (i : BitVec 4) : (c.writeDuration cfg i).Legal cfg := by
  refine ⟨h.bpm, h.template, fun j => ?_, h.res, h.tick6, h.pre⟩
  have hdur := h.dur j
  simp only [Clk.writeDuration, Fin.getElem_fin, Vector.getElem_set] at hdur ⊢
  split
  · exact stepDuration_pos _ _ _ _ _
  · exact hdur

theorem legal_beginUpdate {cfg : Config} {c : Clk} (h : c.Legal cfg) {bpm template : BitVec 8} (amount : BitVec 8)
    (hlegal : legalUpdate cfg bpm template = some ()) : (c.beginUpdate cfg bpm template amount).Legal cfg := by
  unfold legalUpdate at hlegal
  split at hlegal
  case isTrue hrange =>
    obtain ⟨hbpm, htemplate⟩ := hrange
    have hparameters : Clk.Legal cfg { c with bpm := bpm, template := template, amount := amount, base := baseDuration cfg bpm } :=
      ⟨hbpm, htemplate, h.dur, h.res, h.tick6, h.pre⟩
    exact legal_writeDuration hparameters 0
  case isFalse => cases hlegal

theorem legal_setres {cfg : Config} {c : Clk} (h : c.Legal cfg) {res r : BitVec 8} (hlegal : legalRes res = some r) :
    Clk.Legal cfg { c with res := r } := by
  unfold legalRes at hlegal
  split at hlegal
  case isTrue hres => cases hlegal; exact ⟨h.bpm, h.template, h.dur, hres, h.tick6, h.pre⟩
  case isFalse => cases hlegal

theorem legal_clk_init {cfg : Config} {c : Clk} (h : c.Legal cfg) : c.init.Legal cfg :=
  ⟨h.bpm, h.template, h.dur, h.res, Nat.zero_le _, Nat.zero_le _⟩

theorem legal_tick {cfg : Config} {c : Clk} (h : c.Legal cfg) : c.tick.Legal cfg := by
  rcases Clk.tick_cases c with ⟨-, heq⟩ | ⟨-, heq⟩ <;> rw [heq] <;>
    exact ⟨h.bpm, h.template, h.dur, h.res, h.tick6, h.pre⟩

/-- An internal tick keeps both step counters within 0 .. 5 (10_state.md R44): the prescaler stays below the resolution, at most 6. -/
theorem legal_advance {cfg : Config} {c : Clk} (h : c.Legal cfg) : c.advance.1.Legal cfg := by
  have htick6 := h.tick6
  have hpre := h.pre
  have hres : c.res.toNat ≤ 6 := by rcases h.res with hr | hr | hr <;> rw [hr] <;> decide
  refine ⟨h.bpm, h.template, h.dur, h.res, ?_, ?_⟩
  · simp only [Clk.advance]
    split <;> bv_omega
  · simp only [Clk.advance, decide_eq_true_eq]
    split <;> bv_omega

theorem legal_drain {cfg : Config} {c : Clk} (h : c.Legal cfg) (n : Nat) : (c.drain n).1.Legal cfg := by
  induction n generalizing c with
  | zero => exact h
  | succ n ih => exact ih (legal_advance h)

/-! ## The SYS registers -/

theorem reject_code_range (k : Reject) : 1 ≤ k.code.toNat ∧ k.code.toNat ≤ 5 := by cases k <;> decide

theorem legal_recordReject {y : Sys} (h : y.Legal) (k : Reject) : (y.recordReject k).Legal := by
  rcases Sys.recordReject_cases y k with ⟨-, heq⟩ | ⟨-, heq⟩ <;> rw [heq]
  · exact h
  · exact ⟨fun hclear => (by cases hclear), fun _ => reject_code_range k⟩

/-! ## The state -/

/-- The invariant reads four units of the state only. -/
theorem legal_of_units {cfg : Config} {s t : State} (h : s.Legal cfg) (henv : t.env = s.env) (hclk : t.clk = s.clk) (hsys : t.sys = s.sys)
    (hctl : t.ctl = s.ctl) : t.Legal cfg :=
  ⟨henv ▸ h.env, hclk ▸ h.clk, hsys ▸ h.sys, hctl ▸ h.ctl⟩

theorem legal_take {cfg : Config} {s : State} (h : s.Legal cfg) (p : Port) : (s.consumeSchedule.take p).Legal cfg :=
  legal_of_units h (by simp) (by simp) (by simp) (by simp)

theorem legal_reject {cfg : Config} {s : State} (h : s.Legal cfg) (p : Port) (k : Reject) : (s.reject p k).Legal cfg := by
  refine ⟨?_, ?_, ?_, ?_⟩
  · rw [reject_env]; exact h.env
  · rw [reject_clk]; exact h.clk
  · rw [reject_sys]; exact legal_recordReject h.sys k
  · rw [reject_ctl]; exact h.ctl

theorem legal_envs_mapAll {s : State} {cfg : Config} (h : s.Legal cfg) {f : Env → Env} (hf : ∀ x, EnvMove x (f x)) (e : Fin nEnv) :
    (mapAll f s.env)[e].Legal :=
  legal_envMove (envMove_mapAll hf e) (h.env e)

/-- A sample renders every envelope once. -/
theorem legal_sample {s : State} (h : s.Legal config) : (s.sample config).Legal config :=
  ⟨legal_envs_mapAll h fun _ => .render, h.clk, h.sys, h.ctl⟩

theorem legal_refreshTurn {s : State} (h : s.Legal config) (n : Nat) : (s.refreshTurn config n).Legal config := by
  rcases refreshTurn_cases config s n with ⟨-, heq⟩ | ⟨-, heq⟩ <;> rw [heq]
  · exact ⟨h.env, h.clk, h.sys, trivial⟩
  · have hsample := legal_sample h
    exact ⟨hsample.env, hsample.clk, hsample.sys, trivial⟩

theorem legal_effect {s t : State} {i : Instr} (h : s.Legal config) (heffect : Effect s i t) : t.Legal config := by
  cases heffect with
  | sources r _ henv => exact ⟨fun e => legal_envMove (henv e) (h.env e), h.clk, h.sys, h.ctl⟩
  | lfoRender | cvdInit | cvdSetUp | cvdWrite => exact legal_of_units h rfl rfl rfl rfl
  | sysReset =>
    exact ⟨legal_envs_mapAll h fun _ => .init, legal_clk_init h.clk, ⟨fun _ => rfl, fun hset => by cases hset⟩, h.ctl⟩
  | clkInit => exact ⟨h.env, legal_clk_init h.clk, h.sys, h.ctl⟩
  | clkUpdate amount hlegal =>
    have hfirst : (1 : BitVec 4) ≠ 0 := by decide
    exact ⟨h.env, legal_beginUpdate h.clk amount hlegal, h.sys, hfirst⟩
  | clkSetres hlegal => exact ⟨h.env, legal_setres h.clk hlegal, h.sys, h.ctl⟩
  | clkTick => exact ⟨h.env, legal_tick h.clk, h.sys, h.ctl⟩
  | clkCount =>
    have hclk := h.clk
    exact ⟨h.env, ⟨hclk.bpm, hclk.template, hclk.dur, hclk.res, hclk.tick6, hclk.pre⟩, h.sys, trivial⟩
  | cvdRead => exact ⟨h.env, h.clk, ⟨h.sys.none, h.sys.some⟩, h.ctl⟩
  | voxSample _ r => exact legal_of_units (legal_sample h) rfl rfl rfl rfl
  | voxRefresh => exact legal_refreshTurn h 0

/-- Entry 15 is the last, so the entry index never comes back to 0. -/
theorem legal_continueClkUpdate {s : State} (h : s.Legal config) (i : BitVec 4) : (s.continueClkUpdate config i).Legal config := by
  rcases continueClkUpdate_cases config s i with ⟨-, heq⟩ | ⟨hi, heq⟩ <;> rw [heq]
  · exact ⟨h.env, legal_writeDuration h.clk i, h.sys, trivial⟩
  · have hnext : i + 1 ≠ 0 := by bv_omega
    exact ⟨h.env, legal_writeDuration h.clk i, h.sys, hnext⟩

theorem legal_turn {s t : State} (h : s.Legal config) (hturn : Turn s t) : t.Legal config := by
  cases hturn with
  | @clkCount n => exact ⟨h.env, legal_drain h.clk n.toNat, h.sys, trivial⟩
  | @clkUpdate i => exact legal_continueClkUpdate h i
  | @voxRefresh n => exact legal_refreshTurn h n

/-- Settles O59: each kind of step keeps the invariant of each unit. -/
theorem stepKeepsTheInvariants : Obligations.StepKeepsTheInvariants := by
  intro s t h hstep
  have hidle : s.consumeSchedule.Legal config := legal_of_units h rfl rfl rfl rfl
  cases step_kind hstep with
  | @performs p _ _ _ _ _ _ heffect => exact legal_effect (legal_take h p) heffect
  | @rejects p _ k _ _ ht => rw [ht]; exact legal_reject (legal_take h p) p k
  | continues _ _ hturn => exact legal_turn hidle hturn
  | idles _ ht => rw [ht]; exact hidle

/-! ## Power-on (70_reset_and_hazards.md R301, R302) -/

theorem legal_of_powerOn {cfg : Config} {s : State} (h : s.PowerOn cfg) : s.Legal cfg where
  env := fun e => by rw [h.env e]; exact legal_env_init s.env[e]
  clk := h.clkParameters
  sys := by rw [h.sys]; exact ⟨fun _ => rfl, fun hset => by cases hset⟩
  ctl := by rw [h.ctl]; trivial

theorem legal_clk_reset : State.reset.clk.Legal config :=
  ⟨by decide, config.nGroove_range.1, by decide, by decide, by decide, by decide⟩

theorem powerOn_reset : State.reset.PowerOn config where
  sys := rfl
  env := by decide
  lfo := by decide
  clkCounters := rfl
  clkParameters := legal_clk_reset
  gld := rfl
  cvd := rfl
  vox := rfl
  ctl := rfl
  indices := ⟨rfl, rfl⟩
  responses := ⟨rfl, rfl⟩

/-- Settles O60: the values fixed at power-on meet the invariants, and the reset state is such a state. -/
theorem powerOnStatesMeetTheInvariants : Obligations.PowerOnStatesMeetTheInvariants :=
  ⟨fun _ h => legal_of_powerOn h, powerOn_reset, legal_of_powerOn powerOn_reset⟩

end Sys2Proof.Proofs.Invariants
end

section
/-! PROOFS. The statements about every step: which command it runs, what it answers, and which registers it can move. -/

namespace Sys2Proof.Proofs.EveryStep

open Sys2Proof Sys2Proof.Machine Sys2Proof.Claims Sys2Proof.Proofs.Encoding Sys2Proof.Proofs.Decoder Sys2Proof.Proofs.Steps

/-! ## Which port takes the step, and which word (20_memory.md R81) -/

theorem activePort_of_schedule {s : State} {p : Port} {ps : List Port} (h : s.schedule = p :: ps) : s.activePort = p := by
  rw [State.activePort, h]

theorem activePort_eq_T_iff {s : State} (h : s.schedule = []) : s.activePort = .T ↔ s.portT.pending ≠ [] := by
  rw [State.activePort, h]
  cases s.portT.pending <;> simp

/-- Port T is always free, port C between two commands (60_exceptions.md R277). -/
theorem free_iff (s : State) (p : Port) : s.free p = true ↔ (p = .C → s.ctl = .idle) := by
  cases p with
  | C => simp [State.free]
  | T => simp [State.free]

theorem coming_eq_some_iff (s : State) (p : Port) (w : CommandWord) :
    s.coming = some (p, w) ↔ s.activePort = p ∧ (p = .C → s.ctl = .idle) ∧ (s.port p).pending.head? = some w := by
  constructor
  · intro h
    obtain ⟨hactive, hfree, hpending⟩ := coming_head h
    have hw : s.head s.activePort = some w := by
      rw [hactive, State.head, hpending]; rfl
    rw [hactive] at hw
    exact ⟨hactive, (free_iff s p).1 hfree, hw⟩
  · rintro ⟨rfl, hfree, hw⟩
    rw [State.coming, if_pos ((free_iff s _).2 hfree)]
    change ((s.port s.activePort).pending.head?).map _ = _
    rw [hw]
    rfl

/-! ## The step of each kind -/

/-- A step with a coming word issues it, its stream and its interleaving entry used. -/
theorem step_of_coming {s : State} {p : Port} {w : CommandWord} (h : s.coming = some (p, w)) :
    step s = issue p w (s.consumeSchedule.take p) := by
  obtain ⟨rfl, hfree, hw⟩ := (coming_eq_some_iff s p w).1 h
  have hhead : s.head s.activePort = some w := hw
  simp only [step, (free_iff s _).2 hfree, if_true, hhead]

theorem step_of_busy {s : State} (hactive : s.activePort = .C) (hctl : s.ctl ≠ .idle) :
    step s = .next (s.consumeSchedule.continueC config) := by
  have hbusy : ¬ s.free .C = true := fun hfree => hctl ((free_iff s .C).1 hfree rfl)
  simp only [step, hactive, if_neg hbusy]

theorem step_of_nothing {s : State} (hfree : s.activePort = .C → s.ctl = .idle) (h : s.coming = none) :
    step s = .next s.consumeSchedule := by
  have hf : s.free s.activePort = true := (free_iff s _).2 hfree
  rw [State.coming, if_pos hf, Option.map_eq_none_iff] at h
  simp only [step, hf, if_true, h]

/-- Settles O6: the port and the word by the definition of the coming word, and the step of each kind. -/
theorem stepRunsTheDecodedCommand : Obligations.StepRunsTheDecodedCommand := by
  refine fun s w i => ⟨fun _ _ => activePort_of_schedule, activePort_eq_T_iff, fun p => coming_eq_some_iff s p w, step_of_busy,
    fun hcoming hdecode => ?_, fun hcoming hdecode => ?_⟩
  all_goals
    rw [step_of_coming hcoming, issue, hdecode]
    rfl

/-- Settles O8: both answers by the definition of their port's response. -/
theorem replyAndRejectWriteTheResponse : Obligations.ReplyAndRejectWriteTheResponse :=
  fun _ _ _ => ⟨rfl, rfl, rfl, rfl, rfl⟩

/-- Settles O7: the word is issued, and checks 1 to 3 answer for it. -/
theorem stepRejectsAnIllegalWord : Obligations.StepRejectsAnIllegalWord := by
  refine fun s w k => ⟨fun hcoming hdecode => ?_, fun hcoming hdecode => ?_⟩
  all_goals
    rw [step_of_coming hcoming, issue_of_decodeOn_error hdecode]
    rfl

/-- Every command answers with a next state, its rejections among them (60_exceptions.md R270). -/
theorem exec_total (i : Instr) (s : State) : ∃ t, exec i s = .next t := by
  cases i <;> exact ⟨_, rfl⟩

theorem issue_total (p : Port) (w : CommandWord) (s : State) : ∃ t, issue p w s = .next t := by
  unfold issue
  cases decodeOn p w with
  | error k => exact ⟨_, rfl⟩
  | ok i => exact exec_total i s

theorem step_total (s : State) : ∃ t, step s = .next t := by
  by_cases hfree : s.activePort = .C → s.ctl = .idle
  · cases hcoming : s.coming with
    | none => exact ⟨_, step_of_nothing hfree hcoming⟩
    | some x => rw [step_of_coming hcoming]; exact issue_total _ _ _
  · obtain ⟨hactive, hctl⟩ := Classical.not_imp.1 hfree
    exact ⟨_, step_of_busy hactive hctl⟩

/-- Settles O9: no command, no issued word and no step has another answer than a next state. -/
theorem everyStepAnswersNextAndIdleTurnsHold : Obligations.EveryStepAnswersNextAndIdleTurnsHold :=
  fun s => ⟨step_total s, fun p w => issue_total p w s, step_of_nothing⟩

/-! ## The command index (10_state.md R21) -/

/-- At most the response of port `p` is written: its stream and its index stay, and so does the other port. -/
def Served (s t : State) (p : Port) : Prop :=
  (t.port p).pending = (s.port p).pending ∧ (t.port p).index = (s.port p).index ∧ ∀ q, q ≠ p → t.port q = s.port q

theorem served_C {s t : State} (hpending : t.portC.pending = s.portC.pending) (hindex : t.portC.index = s.portC.index)
    (hother : t.portT = s.portT) : Served s t .C :=
  ⟨hpending, hindex, fun q hq => by cases q with
    | C => exact absurd rfl hq
    | T => exact hother⟩

theorem served_T {s t : State} (hpending : t.portT.pending = s.portT.pending) (hindex : t.portT.index = s.portT.index)
    (hother : t.portC = s.portC) : Served s t .T :=
  ⟨hpending, hindex, fun q hq => by cases q with
    | C => exact hother
    | T => exact absurd rfl hq⟩

theorem served_reject (s : State) (p : Port) (k : Reject) : Served s (s.reject p k) p := by
  cases p
  · exact served_C rfl rfl rfl
  · exact served_T rfl rfl rfl

theorem served_refreshTurn (s : State) (n : Nat) : Served s (s.refreshTurn config n) .C := by
  rcases refreshTurn_cases config s n with ⟨-, heq⟩ | ⟨-, heq⟩ <;> rw [heq] <;> exact served_C rfl rfl rfl

theorem served_effect {s t : State} {i : Instr} (h : Effect s i t) : Served s t i.port := by
  cases h with
  | sources _ hport | cvdSetUp hport => rw [hport]; exact served_C rfl rfl rfl
  | clkTick | cvdRead => exact served_T rfl rfl rfl
  | voxRefresh => exact served_refreshTurn s 0
  | lfoRender | sysReset | clkInit | clkUpdate | clkSetres | clkCount | cvdInit | cvdWrite | voxSample => exact served_C rfl rfl rfl

theorem served_turn {s t : State} (h : Turn s t) : Served s t .C := by
  cases h with
  | clkCount => exact served_C rfl rfl rfl
  | @clkUpdate i =>
    rcases continueClkUpdate_cases config s i with ⟨-, heq⟩ | ⟨-, heq⟩ <;> rw [heq] <;> exact served_C rfl rfl rfl
  | @voxRefresh n => exact served_refreshTurn s n

/-- A served port has its stream and its index, and so has the other. -/
theorem port_of_served {s t : State} {p : Port} (h : Served s t p) (q : Port) :
    (t.port q).index = (s.port q).index ∧ (t.port q).pending = (s.port q).pending := by
  obtain ⟨hpending, hindex, hother⟩ := h
  by_cases hq : q = p
  · subst hq; exact ⟨hindex, hpending⟩
  · rw [hother q hq]; exact ⟨rfl, rfl⟩

theorem take_port_of_ne {s : State} {p q : Port} (h : q ≠ p) : (s.take p).port q = s.port q := by
  cases p <;> cases q
  case C.T | T.C => rfl
  all_goals exact absurd rfl h

/-- The word taken, then served: the stream one word shorter, the index one further, the other port as before. -/
theorem port_of_taken {s t : State} {p : Port} {w : CommandWord} (hcoming : s.coming = some (p, w))
    (h : Served (s.consumeSchedule.take p) t p) :
    (s.port p).pending = w :: (t.port p).pending ∧ (t.port p).index = (s.port p).index + 1 ∧ ∀ q, q ≠ p → t.port q = s.port q := by
  obtain ⟨-, -, hhead⟩ := (coming_eq_some_iff s p w).1 hcoming
  obtain ⟨hpending, hindex, hother⟩ := h
  have htail : ((s.consumeSchedule.take p).port p).pending = (s.port p).pending.tail := by cases p <;> rfl
  have hnext : ((s.consumeSchedule.take p).port p).index = (s.port p).index + 1 := by cases p <;> rfl
  refine ⟨?_, hindex.trans hnext, fun q hq => ?_⟩
  · rw [hpending, htail]; exact (List.cons_head?_tail hhead).symm
  · rw [hother q hq, take_port_of_ne hq, State.consumeSchedule_port]

/-- A step takes the coming word and serves its port, or takes none and serves one. -/
theorem served_step {s t : State} (h : step s = .next t) :
    (∃ p w, s.coming = some (p, w) ∧ Served (s.consumeSchedule.take p) t p) ∨ (s.coming = none ∧ ∃ p, Served s.consumeSchedule t p) := by
  cases step_kind h with
  | @performs p w _ hcoming _ _ hport heffect =>
    have hserved := served_effect heffect
    rw [hport] at hserved
    exact .inl ⟨p, w, hcoming, hserved⟩
  | @rejects p w k hcoming _ ht => exact .inl ⟨p, w, hcoming, ht ▸ served_reject _ p k⟩
  | continues hcoming _ hturn => exact .inr ⟨hcoming, .C, served_turn hturn⟩
  | idles hcoming ht => exact .inr ⟨hcoming, .C, ht ▸ served_C rfl rfl rfl⟩

/-- Settles O10: the port that takes a word has it taken and is served; with no word taken both streams stay. -/
theorem commandIndexAdvancesOncePerWord : Obligations.CommandIndexAdvancesOncePerWord := by
  intro s t h
  rcases served_step h with ⟨p, w, hcoming, hserved⟩ | ⟨hcoming, p, hserved⟩
  · refine ⟨fun hnone => (by rw [hcoming] at hnone; cases hnone), fun q v hq => ?_⟩
    obtain ⟨rfl, rfl⟩ := Prod.mk.inj (Option.some.inj (hcoming.symm.trans hq))
    exact port_of_taken hcoming hserved
  · refine ⟨fun _ q => ?_, fun q v hq => (by rw [hcoming] at hq; cases hq)⟩
    have hports := port_of_served hserved q
    rwa [State.consumeSchedule_port] at hports

/-! ## The SYS registers (10_state.md R24, R25) -/

/-- No command but SYS.RESET and CVD.READ writes a SYS register past its checks. -/
theorem effect_sys {s t : State} {i : Instr} (h : Effect s i t) :
    t.sys = s.sys ∨ i = .sysReset ∨
    (i = .cvdRead ∧ t.sys = { s.sys with underrun := s.sys.underrun || s.cvd.underruns }) := by
  cases h with
  | sysReset => exact .inr (.inl rfl)
  | cvdRead => exact .inr (.inr ⟨rfl, rfl⟩)
  | voxRefresh => exact .inl (refreshTurn_sys config s 0)
  | sources | lfoRender | clkInit | clkUpdate | clkSetres | clkTick | clkCount | cvdInit | cvdSetUp | cvdWrite | voxSample =>
    exact .inl rfl

theorem turn_sys {s t : State} (h : Turn s t) : t.sys = s.sys := by
  cases h with
  | clkCount => rfl
  | @clkUpdate i => exact continueClkUpdate_sys config s i
  | @voxRefresh n => exact refreshTurn_sys config s n

/-- The SYS registers over a step: kept, a rejection recorded, reset, or the read's underrun added. -/
theorem step_sys {s t : State} (h : step s = .next t) :
    (∃ k, t.sys = s.sys.recordReject k) ∨ t.sys = s.sys ∨ s.Performs .sysReset ∨
    (s.Performs .cvdRead ∧ t.sys = { s.sys with underrun := s.sys.underrun || s.cvd.underruns }) := by
  cases step_kind h with
  | performs _ _ hi _ heffect =>
    have hsys := effect_sys heffect
    simp only [take_sys, take_cvd, State.consumeSchedule_sys, State.consumeSchedule_cvd] at hsys
    rcases hsys with hsame | rfl | ⟨rfl, hread⟩
    · exact .inr (.inl hsame)
    · exact .inr (.inr (.inl hi))
    · exact .inr (.inr (.inr ⟨hi, hread⟩))
  | @rejects _ _ k _ _ ht => subst ht; exact .inl ⟨k, by simp⟩
  | continues _ _ hturn => have hsys := turn_sys hturn; exact .inr (.inl hsys)
  | idles _ ht => subst ht; exact .inr (.inl rfl)

/-- A read underruns where the voice is not locked and the ring is empty (44_cvdac.md R208). -/
theorem underruns_iff (c : Cvd) : c.underruns = true ↔ c.locked = false ∧ c.wptr = c.rptr := by
  have hempty : c.readable = 0 ↔ c.wptr = c.rptr := by unfold Cvd.readable; bv_omega
  rw [← hempty]
  simp [Cvd.underruns]

/-- Settles O11: each way a step can move the SYS registers, looked at for each flag. -/
theorem errorAndUnderrunAreSticky : Obligations.ErrorAndUnderrunAreSticky := by
  intro s t h hnoReset
  rcases step_sys h with ⟨k, heq⟩ | heq | hreset | ⟨hread, heq⟩
  · rcases Sys.recordReject_cases s.sys k with ⟨-, hrec⟩ | ⟨hclear, hrec⟩ <;> rw [heq, hrec]
    · exact ⟨fun he => ⟨he, rfl⟩, id, fun hoff hon => (by rw [hoff] at hon; cases hon)⟩
    · exact ⟨fun he => (by rw [hclear] at he; cases he), id, fun hoff hon => (by rw [hoff] at hon; cases hon)⟩
  · rw [heq]
    exact ⟨fun he => ⟨he, rfl⟩, id, fun hoff hon => (by rw [hoff] at hon; cases hon)⟩
  · exact absurd hreset hnoReset
  · rw [heq]
    refine ⟨fun he => ⟨he, rfl⟩, fun hon => by simp [hon], fun hoff hon => ⟨hread, ?_⟩⟩
    exact (underruns_iff s.cvd).1 (by simpa [hoff] using hon)

/-! ## What port T can touch (20_memory.md R82) -/

theorem tick_frame (c : Clk) : c.tick = { c with cnt := c.tick.cnt, events := c.tick.events } := by
  rcases Clk.tick_cases c with ⟨-, heq⟩ | ⟨-, heq⟩ <;> rw [heq]

theorem read_frame (c : Cvd) : c.read = { c with rptr := c.read.rptr, out := c.read.out } := by
  rcases Cvd.read_cases c with ⟨-, heq⟩ | ⟨-, -, heq⟩ | ⟨-, -, heq⟩ <;> rw [heq]

/-- `t` is `s` but for the tick counter, the events, the read index, the output, the SYS flags and port T. -/
def TickFrame (s t : State) : Prop :=
  t = { s with
    sys := t.sys
    clk := { s.clk with cnt := t.clk.cnt, events := t.clk.events }
    cvd := { s.cvd with rptr := t.cvd.rptr, out := t.cvd.out }
    portT := t.portT }

theorem tickFrame_effect {s t : State} {i : Instr} (h : Effect s i t) (hT : i.port = .T) : TickFrame s t := by
  cases h with
  | sources _ hport | cvdSetUp hport => rw [hport] at hT; cases hT
  | clkTick =>
    exact congrArg (fun c => State.reply { s with clk := c } .T 0) (tick_frame s.clk)
  | cvdRead =>
    exact congrArg (fun c => State.reply
      { s with cvd := c, sys := { s.sys with underrun := s.sys.underrun || s.cvd.underruns } } .T (pack s.cvd.read.out)) (read_frame s.cvd)
  | lfoRender | sysReset | clkInit | clkUpdate | clkSetres | clkCount | cvdInit | cvdWrite | voxSample | voxRefresh => cases hT

/-- Settles O12: CLK.TICK and CVD.READ, a rejection, and an idle turn of port T. -/
theorem portTTouchesOnlyTheTickState : Obligations.PortTTouchesOnlyTheTickState := by
  intro s t h hT
  cases step_kind h with
  | performs _ hactive _ hport heffect =>
    obtain rfl := hactive.symm.trans hT
    exact tickFrame_effect heffect hport
  | rejects _ hactive ht =>
    obtain rfl := hactive.symm.trans hT
    subst ht
    rfl
  | continues _ hactive => rw [hactive] at hT; cases hT
  | idles _ ht => subst ht; rfl

/-! ## The random input (10_state.md R40) -/

/-- A command past its checks that takes no draw, or one of the three that render an LFO. -/
theorem effect_rng {s t : State} {i : Instr} (h : Effect s i t) :
    t.rng = s.rng ∨ (∃ l, i = .lfoRender l) ∨ i = .voxSample ∨ i = .voxRefresh := by
  cases h with
  | lfoRender l => exact .inr (.inl ⟨l, rfl⟩)
  | voxSample => exact .inr (.inr (.inl rfl))
  | voxRefresh => exact .inr (.inr (.inr rfl))
  | sources | sysReset | clkInit | clkUpdate | clkSetres | clkTick | clkCount | cvdInit | cvdSetUp | cvdWrite | cvdRead => exact .inl rfl

theorem turn_rng {s t : State} (h : Turn s t) : t.rng = s.rng ∨ ∃ n, s.ctl = .voxRefresh n := by
  cases h with
  | clkCount => exact .inl rfl
  | @clkUpdate i => exact .inl (continueClkUpdate_rng config s i)
  | @voxRefresh n hctl => exact .inr ⟨n, hctl⟩

/-- Settles O14: every other kind of step leaves the random input. -/
theorem onlyLfoRendersDraw : Obligations.OnlyLfoRendersDraw := by
  intro s t h hdrawn
  cases step_kind h with
  | performs _ _ hi _ heffect =>
    rcases effect_rng heffect with hsame | ⟨l, rfl⟩ | rfl | rfl
    · exact absurd (by simpa using hsame) hdrawn
    · exact .inl ⟨l, hi⟩
    · exact .inr (.inl hi)
    · exact .inr (.inr (.inl hi))
  | rejects _ _ ht => subst ht; exact absurd (by simp) hdrawn
  | continues _ hactive hturn =>
    rcases turn_rng hturn with hsame | hctl
    · exact absurd hsame hdrawn
    · exact .inr (.inr (.inr ⟨hactive, hctl⟩))
  | idles _ ht => subst ht; exact absurd rfl hdrawn

/-! ## The event counter (20_memory.md R86) -/

/-- The commands that move `EVENTS`, each with what it leaves there. -/
theorem effect_events {s t : State} {i : Instr} (h : Effect s i t) :
    t.clk.events = s.clk.events ∨ (i = .clkTick ∧ t.clk.events = s.clk.events + 1 ∧ t.clk.cnt = 0) ∨
    (i = .clkCount ∧ t.clk.events = 0 ∧ t.ctl = .clkCount s.clk.events) ∨ ((i = .clkInit ∨ i = .sysReset) ∧ t.clk.events = 0) := by
  cases h with
  | clkTick =>
    rcases Clk.tick_cases s.clk with ⟨-, heq⟩ | ⟨-, heq⟩ <;> rw [State.replyT_clk, heq]
    · exact .inr (.inl ⟨rfl, rfl, rfl⟩)
    · exact .inl rfl
  | clkCount => exact .inr (.inr (.inl ⟨rfl, rfl, rfl⟩))
  | clkInit => exact .inr (.inr (.inr ⟨.inl rfl, rfl⟩))
  | sysReset => exact .inr (.inr (.inr ⟨.inr rfl, rfl⟩))
  | voxRefresh => exact .inl (congrArg Clk.events (refreshTurn_clk config s 0))
  | sources | lfoRender | clkUpdate | clkSetres | cvdInit | cvdSetUp | cvdWrite | cvdRead | voxSample => exact .inl rfl

/-- No later step of a port-C command moves `EVENTS`: CLK.COUNT has exchanged it in its first. -/
theorem turn_events {s t : State} (h : Turn s t) : t.clk.events = s.clk.events := by
  cases h with
  | @clkCount n =>
    change (s.clk.drain n.toNat).1.events = s.clk.events
    rw [Clk.drain_frame]
  | @clkUpdate i => rw [continueClkUpdate_clk]; rfl
  | @voxRefresh n => rw [refreshTurn_clk]

/-- Settles O15: the movers of the event counter are commands performed, each with its effect. -/
theorem eventsChangeOnlyByTickCountAndReset : Obligations.EventsChangeOnlyByTickCountAndReset := by
  intro s t h hmoved
  cases step_kind h with
  | performs _ _ hi _ heffect =>
    have hevents := effect_events heffect
    simp only [take_clk, State.consumeSchedule_clk] at hevents
    rcases hevents with hsame | ⟨rfl, htick⟩ | ⟨rfl, hcount⟩ | ⟨rfl | rfl, hzero⟩
    · exact absurd hsame hmoved
    · exact .inl ⟨hi, htick⟩
    · exact .inr (.inl ⟨hi, hcount⟩)
    · exact .inr (.inr ⟨.inl hi, hzero⟩)
    · exact .inr (.inr ⟨.inr hi, hzero⟩)
  | rejects _ _ ht => subst ht; exact absurd (by simp) hmoved
  | continues _ _ hturn => exact absurd (turn_events hturn) hmoved
  | idles _ ht => subst ht; exact absurd rfl hmoved

end Sys2Proof.Proofs.EveryStep
end

section
/-! PROOFS. Responses are outputs: no command and no step reads one (30_encoding.md R104); and the two commands of port T commute up to
their responses (47_host_context.md R251). -/

namespace Sys2Proof.Proofs.Responses

open Sys2Proof Sys2Proof.Machine Sys2Proof.Claims Sys2Proof.Proofs.Encoding Sys2Proof.Proofs.Steps Sys2Proof.Proofs.EveryStep

/-! ## Commands -/

/-- A function of the state that reads no response: with the responses dropped first it leaves the same, but for the responses. -/
def Blind (f : State → State) : Prop := ∀ s, (f s.dropResponses).dropResponses = (f s).dropResponses

/-- A blind function does the same at two states that differ in their responses only. -/
theorem blind_congr {f : State → State} (hf : Blind f) {s u : State} (h : s.dropResponses = u.dropResponses) :
    (f s).dropResponses = (f u).dropResponses := by
  rw [← hf s, h, hf u]

theorem blind_reject (p : Port) (k : Reject) : Blind (fun s => s.reject p k) := fun s => by cases p <;> rfl

/-- Check 4 reads the operand, not the state. -/
theorem blind_withOperand {α : Type} {x : Option α} {f : State → α → State} (hf : ∀ a, Blind (fun s => f s a)) :
    Blind (fun s => s.withOperand x (f s)) := by
  intro s
  cases x with
  | none => exact blind_reject .C .reservedOperand s
  | some a => exact hf a s

/-- Check 5 reads the ring. -/
theorem blind_ite_full {f g : State → State} (hf : Blind f) (hg : Blind g) :
    Blind (fun s => if s.cvd.writable = 0 then f s else g s) := by
  intro s
  change (if s.cvd.writable = 0 then f s.dropResponses else g s.dropResponses).dropResponses =
    (if s.cvd.writable = 0 then f s else g s).dropResponses
  split
  · exact hf s
  · exact hg s

theorem blind_refreshTurn (n : Nat) : Blind (fun s => s.refreshTurn config n) := blind_ite_full (fun _ => rfl) (fun _ => rfl)

/-- Every command is a blind function of the state. -/
theorem exec_blind (i : Instr) : ∃ f, Blind f ∧ ∀ s, exec i s = .next (f s) := by
  cases i
  case sysRdreg | envGate | envInit | envUpdate | envRender | lfoInit | lfoSetshape | lfoSetinc | lfoSync | lfoRender | clkUpdate |
      clkSetres | cvdSetin =>
    exact ⟨_, blind_withOperand fun _ _ => rfl, fun _ => rfl⟩
  case envTrigger => exact ⟨_, blind_withOperand fun _ => blind_withOperand fun _ _ => rfl, fun _ => rfl⟩
  case cvdWrite => exact ⟨_, blind_ite_full (blind_reject _ _) fun _ => rfl, fun _ => rfl⟩
  case voxSample => exact ⟨_, blind_ite_full (blind_reject _ _) fun _ => rfl, fun _ => rfl⟩
  case voxRefresh => exact ⟨_, blind_refreshTurn 0, fun _ => rfl⟩
  case voxNoteOn note velocity slide accent legato =>
    refine ⟨fun s => (s.noteOn config note velocity accent legato).reply .C 0, fun s => ?_, fun _ => rfl⟩
    cases legato <;> rfl
  all_goals exact ⟨_, fun _ => rfl, fun _ => rfl⟩

/-- An issued word is one too: which checks it passes is told from the word. -/
theorem issue_blind (p : Port) (w : CommandWord) : ∃ f, Blind f ∧ ∀ s, issue p w s = .next (f s) := by
  cases hdecode : decodeOn p w with
  | error k => exact ⟨_, blind_reject p k, issue_of_decodeOn_error hdecode⟩
  | ok i =>
    obtain ⟨f, hf, hexec⟩ := exec_blind i
    exact ⟨f, hf, fun s => by rw [issue, hdecode]; exact hexec s⟩

/-! ## Steps -/

/-- The command in progress is told from the control state. -/
theorem blind_continueC : Blind (fun s => s.continueC config) := by
  intro s
  change (State.continueC config s.dropResponses).dropResponses = (State.continueC config s).dropResponses
  have hctl : s.dropResponses.ctl = s.ctl := rfl
  unfold State.continueC
  rw [hctl]
  cases s.ctl with
  | idle => rfl
  | clkCount n => rfl
  | voxRefresh n => exact blind_refreshTurn n s
  | clkUpdate i =>
    change (State.continueClkUpdate config s.dropResponses i).dropResponses = (State.continueClkUpdate config s i).dropResponses
    unfold State.continueClkUpdate
    split <;> rfl

theorem coming_dropResponses (s : State) : s.dropResponses.coming = s.coming := by
  have hpending (p : Port) : (s.dropResponses.port p).pending = (s.port p).pending := by cases p <;> rfl
  have hsome (p : Port) (w : CommandWord) : s.dropResponses.coming = some (p, w) ↔ s.coming = some (p, w) := by
    rw [coming_eq_some_iff, coming_eq_some_iff, hpending]
    rfl
  exact Option.ext fun x => hsome x.1 x.2

theorem take_dropResponses (s : State) (p : Port) :
    (s.dropResponses.consumeSchedule.take p).dropResponses = (s.consumeSchedule.take p).dropResponses := by
  cases p <;> rfl

/-- Settles O16: the same step is taken with the responses dropped, and every kind of step is a blind function. -/
theorem noCommandReadsAResponse : Obligations.NoCommandReadsAResponse := by
  intro s t h
  rcases step_cases h with ⟨p, w, hcoming, -, hissue⟩ | ⟨-, hactive, hctl, rfl⟩ | ⟨hcoming, hfree, rfl⟩
  · obtain ⟨f, hf, hfun⟩ := issue_blind p w
    rw [hfun] at hissue
    cases hissue
    have hstep := step_of_coming ((coming_dropResponses s).trans hcoming)
    exact ⟨_, hstep.trans (hfun _), blind_congr hf (take_dropResponses s p)⟩
  · exact ⟨_, step_of_busy (s := s.dropResponses) hactive hctl, blind_continueC s.consumeSchedule⟩
  · have hidle : s.dropResponses.activePort = .C → s.dropResponses.ctl = .idle := fun hC => (free_iff s .C).1 (hC ▸ hfree) rfl
    exact ⟨_, step_of_nothing hidle ((coming_dropResponses s).trans hcoming), rfl⟩

/-! ## Port T -/

/-- Settles O17: CLK.TICK writes the clock, CVD.READ the ring and UNDERRUN, neither what the other reads. -/
theorem tickAndReadCommute : Obligations.TickAndReadCommute := by
  intro s a b c d ha hb hc hd
  cases ha; cases hb; cases hc; cases hd
  rfl

end Sys2Proof.Proofs.Responses
end

section
/-! PROOFS. SYS.RESET (46_sys.md R241) and the commands of 40_env.md: what each leaves, and where renders with no trigger lead. -/

namespace Sys2Proof.Proofs.EnvCommands

open Sys2Proof Sys2Proof.Machine Sys2Proof.Claims Sys2Proof.Proofs.Envelope Sys2Proof.Proofs.Glide Sys2Proof.Proofs.Voice
open Sys2Proof.Proofs.Invariants

/-- Settles O21: the INIT of every unit, on every envelope and every LFO. -/
theorem resetCommandRestoresTheResetValues : Obligations.ResetCommandRestoresTheResetValues := by
  intro s
  change Host.Outcome.next (s.sysReset.reply .C 0) = _
  rw [State.sysReset, mapAll_eq_map, mapAll_eq_map]
  rfl

/-! ## The commands (40_env.md section 2) -/

/-- An envelope operand in range is performed on its envelope. -/
theorem withOperand_envIndex {e : BitVec 4} (h : e.toNat < nEnv) (s : State) (f : Fin nEnv → State) :
    s.withOperand (envIndex e) f = f ⟨e.toNat, h⟩ := by
  rw [envIndex_of_lt e h, State.withOperand_some]

/-- Settles O22: both commands write the registers of their one envelope. -/
theorem envInitAndUpdate : Obligations.EnvInitAndUpdate := by
  refine fun e h s attack decay sustain release => ⟨?init, ?update⟩
  case init => exact congrArg Host.Outcome.next (withOperand_envIndex h s _)
  case update =>
    rw [Nat.mul_comm 257]
    exact congrArg Host.Outcome.next (withOperand_envIndex h s _)

/-- ENV.TRIGGER with the code of a segment triggers the envelope into it. -/
theorem exec_envTrigger {e : BitVec 4} (h : e.toNat < nEnv) (s : State) {c : BitVec 3} {g : Segment} (hc : Segment.ofCode c = some g) :
    exec (.envTrigger e c) s = .next (State.reply { s with env := s.env.set e.toNat (s.env[e.toNat].trigger g) } .C 0) := by
  refine congrArg Host.Outcome.next ((withOperand_envIndex h s _).trans ?_)
  rw [hc, State.withOperand_some]
  rfl

/-- Settles O24: the five segments, whose triggers differ in start value and target. -/
theorem envTriggerEntersTheSegment : Obligations.EnvTriggerEntersTheSegment := fun _ h s =>
  ⟨exec_envTrigger h s rfl, exec_envTrigger h s rfl, exec_envTrigger h s rfl, exec_envTrigger h s rfl, exec_envTrigger h s rfl⟩

theorem exec_envRender {e : BitVec 4} (h : e.toNat < nEnv) (s : State) :
    exec (.envRender e) s = .next (State.reply { s with env := s.env.set e.toNat (s.env[e.toNat].render config) } .C
      ((s.env[e.toNat].render config).value.setWidth 48)) :=
  congrArg Host.Outcome.next (withOperand_envIndex h s _)

/-- A segment that overflows is not SUSTAIN or DEAD, and its completing call is the one the statements write out. -/
theorem complete_eq_completed {x : Env} (hover : 2 ^ 32 ≤ x.phase.toNat + (x.inc x.seg).toNat) : x.complete = completed x := by
  have hphase := x.phase.isLt
  unfold Env.complete completed
  cases hg : x.seg with
  | attack | decay | release => rfl
  | sustain | dead =>
    have hstill : (x.inc x.seg).toNat = 0 := by rw [hg]; rfl
    omega

/-- Settles O25: the two cases of a render exclude each other. -/
theorem envRenderAdvancesOrCompletes : Obligations.EnvRenderAdvancesOrCompletes := by
  intro e h s x ph v
  rw [exec_envRender h s]
  rcases Env.render_cases config x with ⟨hno, heq⟩ | ⟨hover, heq⟩
  · exact ⟨fun _ => by rw [heq], fun hover => by omega⟩
  · exact ⟨fun hno => by omega, fun _ => by rw [heq, complete_eq_completed hover]⟩

/-! ## Holding segments (R138) -/

/-- SUSTAIN entered by a trigger is a legal envelope that holds. -/
theorem iterate_render_sustain (cfg : Config) (e : Env) (n : Nat) :
    (Env.render cfg)^[n] (e.trigger .sustain) = e.trigger .sustain :=
  Function.iterate_fixed (render_of_holding (legal_trigger e .sustain) (.inl rfl) cfg) n

/-- Settles O28: a legal envelope in a holding segment is a fixed point of the render, and a trigger leaves a legal envelope. -/
theorem holdingSegmentsDoNotMove : Obligations.HoldingSegmentsDoNotMove := by
  refine ⟨fun e h s hlegal hseg => ?render, fun cfg e n => ⟨iterate_render_sustain cfg e n, rfl⟩⟩
  case render => rw [exec_envRender h s, render_of_holding hlegal hseg, Vector.set_getElem_self]

/-! ## Where renders lead (R130) -/

theorem inc_ne_zero_of_update (cfg : Config) (e : Env) (a d s r : BitVec 8) {g : Segment} (hg : g = .attack ∨ g = .decay ∨ g = .release) :
    (e.update cfg a d s r).inc g ≠ 0 := by
  rcases hg with rfl | rfl | rfl
  · exact cfg.envIncLut_ne_zero a
  · exact cfg.envIncLut_ne_zero d
  · exact cfg.envIncLut_ne_zero r

/-- The completing call triggers the segment that follows, where there is one. -/
theorem complete_of_following {e : Env} {next : Segment} (h : Segment.following e.seg = some next) :
    e.complete = Env.trigger { e with value := e.b } next := by
  simp only [Env.complete, h]

/-- A moving segment runs into a trigger of the one that follows, from its target, the increments and the sustain level kept. -/
theorem iterate_render_reaches (cfg : Config) (e : Env) {g next : Segment} (hmoves : e.inc g ≠ 0)
    (hnext : Segment.following g = some next) :
    ∃ n x, (Env.render cfg)^[n] (e.trigger g) = Env.trigger x next ∧ x.value = e.target g ∧
      (∀ k, x.inc k = e.inc k) ∧ x.sustainLevel = e.sustainLevel := by
  obtain ⟨ph, hdone⟩ := iterate_render_trigger_completes cfg e g hmoves
  exact ⟨_, { atPhase cfg (e.trigger g) ph with value := e.target g },
    hdone.trans (complete_of_following (e := atPhase cfg (e.trigger g) ph) hnext), rfl, fun k => by cases k <;> rfl, rfl⟩

/-- From an envelope that renders leave as it is, it stays. -/
theorem iterate_render_stays {cfg : Config} {x y : Env} {n : Nat} (hreach : (Env.render cfg)^[n] x = y) (hstay : y.render cfg = y)
    {k : Nat} (hk : n ≤ k) : (Env.render cfg)^[k] x = y := by
  obtain ⟨j, rfl⟩ := Nat.exists_eq_add_of_le' hk
  rw [Function.iterate_add_apply, hreach, Function.iterate_fixed hstay]

/-- Settles O29: ATTACK runs into DECAY and that into SUSTAIN, RELEASE into DEAD; there the envelope holds. -/
theorem envelopeRunsToItsHoldingSegment : Obligations.EnvelopeRunsToItsHoldingSegment := by
  intro cfg e attack decay sustain release x
  refine ⟨?attack, ?release⟩
  case attack =>
    obtain ⟨m, y, hm, -, hinc, hlevel⟩ :=
      iterate_render_reaches cfg x (g := .attack) (inc_ne_zero_of_update cfg e _ _ _ _ (.inl rfl)) rfl
    have hdecay : y.inc .decay ≠ 0 := by
      rw [hinc]; exact inc_ne_zero_of_update cfg e _ _ _ _ (.inr (.inl rfl))
    obtain ⟨n, z, hn, hvalue, -, -⟩ := iterate_render_reaches cfg y (g := .decay) hdecay rfl
    have hreach : (Env.render cfg)^[n + m] (x.trigger .attack) = z.trigger .sustain := by
      rw [Function.iterate_add_apply, hm, hn]
    have hstay : (z.trigger .sustain).render cfg = z.trigger .sustain := iterate_render_sustain cfg z 1
    have hz : (z.trigger .sustain).value = BitVec.ofNat 16 (sustain.toNat * 257) := hvalue.trans hlevel
    have hsustain := sustain.isLt
    refine ⟨n + m, fun k hk => ?_⟩
    rw [iterate_render_stays hreach hstay hk, hz, BitVec.toNat_ofNat]
    exact ⟨rfl, by omega⟩
  case release =>
    obtain ⟨n, y, hn, -, -, -⟩ :=
      iterate_render_reaches cfg x (g := .release) (inc_ne_zero_of_update cfg e _ _ _ _ (.inr (.inr rfl))) rfl
    have hstay : (y.trigger .dead).render cfg = y.trigger .dead := render_of_holding (legal_trigger y .dead) (.inr rfl) cfg
    exact ⟨n, fun k hk => by rw [iterate_render_stays hn hstay hk]; exact ⟨rfl, rfl⟩⟩

/-! ## The interpolation primitive (00_scope.md R10) -/

/-- Settles O30: from the numerator of the interpolation, upward and downward. -/
theorem mixStaysBetweenItsEnds : Obligations.MixStaysBetweenItsEnds := fun a b c _ =>
  ⟨toNat_mix16 a b c, mix16_zero a b, mix16_self a c, fun hup => ⟨start_le_mix16 hup c, mix16_le_target hup c⟩,
    fun hdown => ⟨target_le_mix16 hdown c, mix16_le_start hdown c⟩, mix16_mono, mix16_anti⟩

end Sys2Proof.Proofs.EnvCommands
end

section
/-! PROOFS. The commands of 41_lfo.md: set-up, render of each shape, synchronisation, and the phase after any number of renders. -/

namespace Sys2Proof.Proofs.LfoCommands

open Sys2Proof Sys2Proof.Machine Sys2Proof.Claims

/-- An LFO operand in range is performed on its LFO. -/
theorem withOperand_lfoIndex {l : BitVec 4} (h : l.toNat < nLfo) (s : State) (f : Fin nLfo → State) :
    s.withOperand (lfoIndex l) f = f ⟨l.toNat, h⟩ := by
  rw [lfoIndex_of_lt l h, State.withOperand_some]

theorem shape_ofCode_code (sh : Shape) : Shape.ofCode sh.code = sh := by cases sh <;> rfl

/-- Settles O31: the three commands write registers of their one LFO. -/
theorem lfoSetUpCommands : Obligations.LfoSetUpCommands := by
  refine fun l h s inc sh => ⟨?init, ?setshape, ?setinc, rfl⟩
  case init => exact congrArg Host.Outcome.next (withOperand_lfoIndex h s _)
  case setshape =>
    refine congrArg Host.Outcome.next ((withOperand_lfoIndex h s _).trans ?_)
    rw [shape_ofCode_code]
    rfl
  case setinc => exact congrArg Host.Outcome.next (withOperand_lfoIndex h s _)

/-! ## A render (41_lfo.md R154) -/

theorem exec_lfoRender {l : BitVec 4} (h : l.toNat < nLfo) (s : State) :
    exec (.lfoRender l) s = .next (State.reply
      { s with lfo := s.lfo.set l.toNat (s.lfo[l.toNat].render s.rng).1, rng := (s.lfo[l.toNat].render s.rng).2 } .C
      ((s.lfo[l.toNat].render s.rng).1.value.setWidth 48)) :=
  congrArg Host.Outcome.next (withOperand_lfoIndex h s _)

/-- A render that takes no draw: the phase advances and the value is the output there. -/
theorem render_of_kept {x : Lfo} (h : Shape.redraws x.shape (overflowed (x.phase + x.inc) x.inc) = false) (r : Rng) :
    x.render r = ({ x with phase := x.phase + x.inc, value := x.output ((x.phase + x.inc).extractLsb' 16 16) }, r) := by
  simp only [Lfo.render, h, Bool.false_eq_true, if_false]
  rfl

/-- A render that takes a draw: the cached values are written before the output is computed. -/
theorem render_of_redrawn {x : Lfo} (h : Shape.redraws x.shape (overflowed (x.phase + x.inc) x.inc) = true) (r : Rng) :
    x.render r = ({ x.cache r.draw.1 with
      phase := x.phase + x.inc
      value := (x.cache r.draw.1).output ((x.phase + x.inc).extractLsb' 16 16) }, r.draw.2) := by
  simp only [Lfo.render, h, if_true]
  rfl

/-- What every render does, whether it draws or not. -/
theorem render_phase_inc_shape (x : Lfo) (r : Rng) :
    (x.render r).1.phase = x.phase + x.inc ∧ (x.render r).1.inc = x.inc ∧ (x.render r).1.shape = x.shape := by
  cases h : Shape.redraws x.shape (overflowed (x.phase + x.inc) x.inc) with
  | false => rw [render_of_kept h]; exact ⟨rfl, rfl, rfl⟩
  | true => rw [render_of_redrawn h]; exact ⟨rfl, rfl, rfl⟩

/-! ## Arithmetic shapes (R155) -/

/-- The shapes of which the statements give a level. -/
def Arithmetic (sh : Shape) : Prop := sh = .triangle ∨ sh = .square ∨ sh = .rampUp ∨ sh = .rampDown

theorem redraws_of_arithmetic {sh : Shape} (h : Arithmetic sh) (wrapped : Bool) : Shape.redraws sh wrapped = false := by
  rcases h with rfl | rfl | rfl | rfl <;> rfl

/-- The high half of a phase as a number. -/
theorem toNat_high_half (ph : BitVec 32) : (ph.extractLsb' 16 16).toNat = ph.toNat / 2 ^ 16 := by
  rw [BitVec.extractLsb'_toNat, Nat.shiftRight_eq_div_pow]
  omega

theorem toNat_triangle (p : BitVec 16) :
    (triangle p).toNat = if p.toNat < 0x8000 then 2 * p.toNat % 65536 else 65535 - 2 * p.toNat % 65536 := by
  unfold triangle
  have hhalf : p < 0x8000 ↔ p.toNat < 0x8000 := BitVec.lt_def
  simp only [hhalf]
  split <;> bv_omega

/-- The output of an arithmetic shape is its level at the high half of the phase. -/
theorem toNat_output_of_arithmetic {x : Lfo} (h : Arithmetic x.shape) (p : BitVec 16) :
    (x.output p).toNat = arithmeticLevel x.shape p.toNat := by
  have hhalf : p < 0x8000 ↔ p.toNat < 0x8000 := BitVec.lt_def
  unfold Lfo.output arithmeticLevel
  rcases h with h | h | h | h <;> simp only [h]
  · exact toNat_triangle p
  · simp only [hhalf]
    split <;> rfl
  · bv_omega

/-- Settles O32: an arithmetic shape takes no draw, and its output is its level. -/
theorem lfoRenderOfArithmeticShapes : Obligations.LfoRenderOfArithmeticShapes := by
  intro l h s x v hshape
  have hp : ((x.phase + x.inc).extractLsb' 16 16).toNat = (x.phase.toNat + x.inc.toNat) % 2 ^ 32 / 2 ^ 16 := by
    rw [toNat_high_half, BitVec.toNat_add]
  have hv : (x.output ((x.phase + x.inc).extractLsb' 16 16)).toNat = v := by
    rw [toNat_output_of_arithmetic hshape, hp]
  rw [exec_lfoRender h s, render_of_kept (redraws_of_arithmetic hshape _)]
  have hvalue : x.output ((x.phase + x.inc).extractLsb' 16 16) = BitVec.ofNat 16 v := by
    rw [← hv, BitVec.ofNat_toNat, BitVec.setWidth_eq]
  have hresult : (x.output ((x.phase + x.inc).extractLsb' 16 16)).setWidth 48 = BitVec.ofNat 48 v := by
    rw [← hv, BitVec.ofNat_toNat]
  change Host.Outcome.next (State.reply { s with
    lfo := s.lfo.set l.toNat { x with phase := x.phase + x.inc, value := x.output ((x.phase + x.inc).extractLsb' 16 16) } } .C
      ((x.output ((x.phase + x.inc).extractLsb' 16 16)).setWidth 48)) = _
  rw [hresult, hvalue]

/-! ## Random shapes (R156) -/

/-- The cached value after a render of a held shape: redrawn if the phase wraps. -/
def heldCur (x : Lfo) (r : Rng) : BitVec 16 := if 2 ^ 32 ≤ x.phase.toNat + x.inc.toNat then r.draw.1 else x.cur

/-- The value before it, as LINES keeps it. -/
def heldPrev (x : Lfo) : BitVec 16 := if 2 ^ 32 ≤ x.phase.toNat + x.inc.toNat then x.cur else x.prev

/-- The random input after that render. -/
def heldRng (x : Lfo) (r : Rng) : Rng := if 2 ^ 32 ≤ x.phase.toNat + x.inc.toNat then r.draw.2 else r

/-- An LFO with its cached values replaced. -/
def withCache (x : Lfo) (cur prev : BitVec 16) : Lfo := { x with cur := cur, prev := prev }

theorem withCache_shape (x : Lfo) (cur prev : BitVec 16) : (withCache x cur prev).shape = x.shape := rfl

/-- The three held shapes redraw at a wrap; LINES alone writes the value before it. -/
theorem render_of_held {x : Lfo} (h : x.shape = .sampleAndHold ∨ x.shape = .bernouilli ∨ x.shape = .lines) (r : Rng) :
    let y := withCache x (heldCur x r) (if x.shape = .lines then heldPrev x else x.prev)
    x.render r = ({ y with phase := x.phase + x.inc, value := y.output ((x.phase + x.inc).extractLsb' 16 16) }, heldRng x r) := by
  have hdraws : Shape.redraws x.shape (overflowed (x.phase + x.inc) x.inc) = decide (2 ^ 32 ≤ x.phase.toNat + x.inc.toNat) := by
    rw [overflowed_add]
    rcases h with h | h | h <;> rw [h] <;> rfl
  unfold heldCur heldPrev heldRng
  by_cases hw : 2 ^ 32 ≤ x.phase.toNat + x.inc.toNat
  · simp only [if_pos hw]
    exact render_of_redrawn (hdraws.trans (decide_eq_true hw)) r
  · simp only [if_neg hw, ite_self]
    exact render_of_kept (hdraws.trans (decide_eq_false hw)) r

theorem output_of_sampleAndHold {x : Lfo} (h : x.shape = .sampleAndHold) (p : BitVec 16) : x.output p = x.cur := by
  simp only [Lfo.output, h]

theorem output_of_lines {x : Lfo} (h : x.shape = .lines) (p : BitVec 16) : x.output p = mix16 x.prev x.cur p := by
  simp only [Lfo.output, h]

theorem output_of_noise {x : Lfo} (h : x.shape = .noise) (p : BitVec 16) : x.output p = x.cur := by
  simp only [Lfo.output, h]

/-- BERNOUILLI is at one end or the other, by the top bit of the cached value. -/
theorem output_of_bernouilli {x : Lfo} (h : x.shape = .bernouilli) (p : BitVec 16) :
    x.output p = if x.cur.toNat < 32768 then 0 else 65535 := by
  have hbit : x.cur.getLsbD 15 = true ↔ ¬ x.cur.toNat < 32768 := by
    rw [← BitVec.msb_eq_getLsbD_last (x := x.cur), BitVec.msb_eq_decide, decide_eq_true_eq, Nat.not_lt]
  simp only [Lfo.output, h, hbit, ite_not]

theorem render_of_sampleAndHold {x : Lfo} (h : x.shape = .sampleAndHold) (r : Rng) :
    x.render r = ({ x with phase := x.phase + x.inc, cur := heldCur x r, value := heldCur x r }, heldRng x r) := by
  have hne : x.shape ≠ .lines := by rw [h]; decide
  rw [render_of_held (.inl h), if_neg hne, output_of_sampleAndHold ((withCache_shape _ _ _).trans h)]
  rfl

theorem render_of_bernouilli {x : Lfo} (h : x.shape = .bernouilli) (r : Rng) :
    x.render r = ({ x with
      phase := x.phase + x.inc, cur := heldCur x r, value := if (heldCur x r).toNat < 32768 then 0 else 65535 }, heldRng x r) := by
  have hne : x.shape ≠ .lines := by rw [h]; decide
  rw [render_of_held (.inr (.inl h)), if_neg hne, output_of_bernouilli ((withCache_shape _ _ _).trans h)]
  rfl

theorem render_of_lines {x : Lfo} (h : x.shape = .lines) (r : Rng) :
    x.render r = ({ x with
      phase := x.phase + x.inc, cur := heldCur x r, prev := heldPrev x
      value := mix16 (heldPrev x) (heldCur x r) ((x.phase + x.inc).extractLsb' 16 16) }, heldRng x r) := by
  rw [render_of_held (.inr (.inr h)), if_pos h, output_of_lines ((withCache_shape _ _ _).trans h)]
  rfl

/-- NOISE always draws. -/
theorem render_of_noise {x : Lfo} (h : x.shape = .noise) (r : Rng) :
    x.render r = ({ x with phase := x.phase + x.inc, cur := r.draw.1, value := r.draw.1 }, r.draw.2) := by
  have hdraws : Shape.redraws x.shape (overflowed (x.phase + x.inc) x.inc) = true := by rw [h]; rfl
  have hne : x.shape ≠ .lines := by rw [h]; decide
  rw [render_of_redrawn hdraws, output_of_noise ((Lfo.cache_shape _ _).trans h), Lfo.cache, if_neg hne]

/-- Settles O33: what a draw is, and the render of each random shape. -/
theorem lfoRenderOfRandomShapes : Obligations.LfoRenderOfRandomShapes := by
  refine ⟨Rng.draw_cons, Rng.draw_nil, fun l h s => ⟨fun hs => ?_, fun hs => ?_, fun hs => ?_, fun hs => ?_⟩⟩
  · rw [exec_lfoRender h s, render_of_sampleAndHold hs]; rfl
  · rw [exec_lfoRender h s, render_of_bernouilli hs]; rfl
  · rw [exec_lfoRender h s, render_of_lines hs]; rfl
  · rw [exec_lfoRender h s, render_of_noise hs]

/-! ## Synchronisation (R158) -/

theorem toNat_ofInt_clamp {lo hi : BitVec 32} (h : lo ≤ hi) (x : Int) :
    ((BitVec.ofInt 32 (clamp x lo.toNat hi.toNat)).toNat : Int) = min (max x lo.toNat) hi.toNat := by
  have hmem := clamp_mem (Int.ofNat_le.2 h) x
  have hlt := hi.isLt
  rw [BitVec.toNat_ofInt]
  unfold clamp at hmem ⊢
  omega

theorem ofInt_clamp_mem {lo hi : BitVec 32} (h : lo ≤ hi) (x : Int) :
    lo ≤ BitVec.ofInt 32 (clamp x lo.toNat hi.toNat) ∧ BitVec.ofInt 32 (clamp x lo.toNat hi.toNat) ≤ hi := by
  have hnum := toNat_ofInt_clamp h x
  rw [BitVec.le_def] at h
  rw [BitVec.le_def, BitVec.le_def]
  omega

/-- Settles O34: the increment is clamped after the correction, so it lies within the bounds of the configuration. -/
theorem lfoSyncCorrectsTheIncrement : Obligations.LfoSyncCorrectsTheIncrement := by
  intro l h step s x target dErr pErr wanted
  have hrange := config.lfoInc_range
  obtain ⟨hmin, hmax⟩ := ofInt_clamp_mem hrange wanted
  exact ⟨_, congrArg Host.Outcome.next (withOperand_lfoIndex h s _), toNat_ofInt_clamp hrange wanted, hmin, hmax⟩

/-! ## Any number of renders -/

/-- A shape other than NOISE does not redraw while the increment is 0: the phase cannot wrap (R157). -/
theorem redraws_of_stopped {x : Lfo} (hinc : x.inc = 0) (hshape : x.shape ≠ .noise) :
    Shape.redraws x.shape (overflowed (x.phase + x.inc) x.inc) = false := by
  have hno : overflowed (x.phase + x.inc) x.inc = false := by
    rw [hinc]; exact decide_eq_false (BitVec.not_lt_zero)
  rw [hno]
  cases hs : x.shape with
  | noise => exact absurd hs hshape
  | triangle | square | rampUp | rampDown | sampleAndHold | bernouilli | lines => rfl

theorem render_of_stopped {x : Lfo} (hinc : x.inc = 0) (hshape : x.shape ≠ .noise) (r : Rng) :
    (x.render r).2 = r ∧ (x.render r).1.cur = x.cur ∧ (x.render r).1.prev = x.prev := by
  rw [render_of_kept (redraws_of_stopped hinc hshape)]
  exact ⟨rfl, rfl, rfl⟩

/-- Settles O35: by induction on the renders, each of which advances the phase once. -/
theorem lfoPhaseAdvancesOncePerRender : Obligations.LfoPhaseAdvancesOncePerRender := by
  intro l r k
  induction k with
  | zero => exact ⟨by simp, rfl, rfl, fun _ _ => ⟨rfl, rfl, rfl⟩⟩
  | succ k ih =>
    rw [Function.iterate_succ_apply']
    generalize (fun z : Lfo × Rng => z.1.render z.2)^[k] (l, r) = z at ih ⊢
    obtain ⟨hphase, hinc, hshape, hstopped⟩ := ih
    obtain ⟨hphase', hinc', hshape'⟩ := render_phase_inc_shape z.1 z.2
    refine ⟨?_, hinc'.trans hinc, hshape'.trans hshape, fun hzero hne => ?_⟩
    · rw [hphase', hphase, hinc, BitVec.ofNat_add, BitVec.add_mul, BitVec.add_assoc, BitVec.one_mul]
    · obtain ⟨hrng, hcur, hprev⟩ := hstopped hzero hne
      obtain ⟨hrng', hcur', hprev'⟩ := render_of_stopped (hinc.trans hzero) (hshape ▸ hne) z.2
      exact ⟨hrng'.trans hrng, hcur'.trans hcur, hprev'.trans hprev⟩

end Sys2Proof.Proofs.LfoCommands
end

section
/-! PROOFS. The commands of 42_clk.md: set-up, the step table entry by entry, ticks and events, the two steps of CLK.COUNT, and the tempo. -/

namespace Sys2Proof.Proofs.ClkCommands

open Sys2Proof Sys2Proof.Machine Sys2Proof.Claims Sys2Proof.Proofs.Steps Sys2Proof.Proofs.EveryStep

/-! ## Set-up (R171, R173) -/

/-- One internal tick of a prescaler that has reached the resolution: an event, and the count restarts. -/
theorem advance_of_stale {c : Clk} (hstale : c.res.toNat ≤ c.pre.toNat) (hpre : c.pre.toNat ≤ 5) :
    c.advance.2 = true ∧ c.advance.1.pre = 0 := by
  have hevent : c.res.toNat ≤ (c.pre + 1).toNat := by bv_omega
  exact ⟨decide_eq_true hevent, if_pos (decide_eq_true hevent)⟩

theorem legalRes_of_mem {res : BitVec 8} (h : res = 1 ∨ res = 2 ∨ res = 6) : legalRes res = some res := if_pos h

/-- Settles O36: the stale prescaler at its next internal tick, and the two commands. -/
theorem clkInitAndSetRes : Obligations.ClkInitAndSetRes := by
  refine ⟨fun c n hstale hpre => ?stale, fun s res => ⟨rfl, fun hres => ?setres⟩⟩
  case stale =>
    obtain ⟨hevent, hzero⟩ := advance_of_stale hstale hpre
    exact ⟨by rw [Clk.drain_succ, hevent, if_pos rfl], hzero⟩
  case setres =>
    change Host.Outcome.next (s.withOperand (legalRes res) _) = _
    rw [legalRes_of_mem hres, State.withOperand_some]

/-! ## CLK.UPDATE (R172) -/

theorem legalUpdate_of_range {cfg : Config} {bpm template : BitVec 8} (hbpm : bpm ≠ 0) (htemplate : template.toNat < cfg.nGroove) :
    legalUpdate cfg bpm template = some () := if_pos ⟨hbpm, htemplate⟩

/-- The clock registers with the operands of CLK.UPDATE stored, before any entry is written. -/
def withParameters (cfg : Config) (c : Clk) (bpm template amount : BitVec 8) : Clk :=
  { c with bpm := bpm, template := template, amount := amount, base := baseDuration cfg bpm }

/-- The table of `c` with entries 0 to `j` computed from its parameters. -/
def withEntries (cfg : Config) (c : Clk) (j : Nat) : Clk :=
  { c with dur := Vector.ofFn fun i : Fin 16 =>
      if i.val ≤ j then stepDuration cfg c.template c.amount c.base (BitVec.ofNat 4 i) else c.dur[i] }

theorem writeDuration_zero (cfg : Config) (c : Clk) : c.writeDuration cfg 0 = withEntries cfg c 0 := by
  refine congrArg (fun d => { c with dur := d }) (Vector.ext fun i hi => ?_)
  rw [Vector.getElem_set, Vector.getElem_ofFn]
  by_cases h : i = 0
  · subst h; rfl
  · rw [if_neg (by simpa using Ne.symm h), if_neg (by simpa using h)]
    rfl

/-- An entry write, past the entries already computed, reads the parameters, which no entry write touches. -/
theorem writeDuration_withEntries (cfg : Config) (c : Clk) (j : Nat) (i : BitVec 4) :
    (withEntries cfg c j).writeDuration cfg i =
      { c with dur := (withEntries cfg c j).dur.set i.toNat (stepDuration cfg c.template c.amount c.base i) } := by
  simp only [Clk.writeDuration, withEntries]

/-- One entry more. -/
theorem writeDuration_succ (cfg : Config) (c : Clk) {j : Nat} (hj : j + 1 < 16) :
    (withEntries cfg c j).writeDuration cfg (BitVec.ofNat 4 (j + 1)) = withEntries cfg c (j + 1) := by
  have hindex : (BitVec.ofNat 4 (j + 1)).toNat = j + 1 := by rw [BitVec.toNat_ofNat]; omega
  rw [writeDuration_withEntries]
  refine congrArg (fun d => { c with dur := d }) (Vector.ext fun k hk => ?_)
  rw [Vector.getElem_set, hindex]
  simp only [withEntries, Vector.getElem_ofFn]
  by_cases h : j + 1 = k
  · subst h
    rw [if_pos rfl, if_pos (Nat.le_refl _)]
  · rw [if_neg h]
    by_cases hle : k ≤ j
    · rw [if_pos hle, if_pos (Nat.le_succ_of_le hle)]
    · rw [if_neg hle, if_neg (by omega)]

/-- The state after the first step of CLK.UPDATE and `j` more. -/
def updated (s : State) (c : Clk) (j : Nat) : State :=
  { s with clk := withEntries config c j, ctl := .clkUpdate (BitVec.ofNat 4 (j + 1)) }

/-- A later step in mid-table writes the next entry and goes on. -/
theorem continueC_updated (s : State) (c : Clk) {j : Nat} (hj : j + 1 < 15) :
    (updated s c j).continueC config = updated s c (j + 1) := by
  have hne : BitVec.ofNat 4 (j + 1) ≠ 15 := by
    intro h
    have hnum := congrArg BitVec.toNat h
    rw [BitVec.toNat_ofNat] at hnum
    change (j + 1) % 2 ^ 4 = 15 at hnum
    omega
  have hnext : BitVec.ofNat 4 (j + 1) + 1 = BitVec.ofNat 4 (j + 1 + 1) := by rw [BitVec.ofNat_add (j + 1)]; rfl
  change State.continueClkUpdate config (updated s c j) (BitVec.ofNat 4 (j + 1)) = _
  rcases continueClkUpdate_cases config (updated s c j) (BitVec.ofNat 4 (j + 1)) with ⟨heq, -⟩ | ⟨-, heq⟩
  · exact absurd heq hne
  · have hwrite : (updated s c j).clk.writeDuration config (BitVec.ofNat 4 (j + 1)) = withEntries config c (j + 1) :=
      writeDuration_succ config c (by omega)
    rw [heq, hwrite, hnext]
    rfl

/-- The step of entry 15 ends the command. -/
theorem continueC_updated_last (s : State) (c : Clk) :
    (updated s c 14).continueC config = State.reply { s with clk := withEntries config c 15, ctl := .idle } .C 0 := by
  have hwrite : (updated s c 14).clk.writeDuration config 15 = withEntries config c 15 := writeDuration_succ config c (by decide)
  change State.continueClkUpdate config (updated s c 14) 15 = _
  rcases continueClkUpdate_cases config (updated s c 14) 15 with ⟨-, heq⟩ | ⟨hne, -⟩
  · rw [heq, hwrite]
    rfl
  · exact absurd rfl hne

theorem continued_updated (s : State) (c : Clk) {j : Nat} (hj : j < 15) : continued j (updated s c 0) = updated s c j := by
  induction j with
  | zero => rfl
  | succ j ih =>
    have hprev : (State.continueC config)^[j] (updated s c 0) = updated s c j := ih (by omega)
    rw [continued, Function.iterate_succ_apply', hprev, continueC_updated s c hj]

/-- The base duration is the number of the statements: it is clamped to 16 bits. -/
theorem toNat_baseDuration (cfg : Config) (bpm : BitVec 8) : (baseDuration cfg bpm).toNat = baseNumber cfg bpm.toNat := by
  rw [baseDuration, BitVec.toNat_ofNat, baseNumber, Nat.mod_eq_of_lt]
  exact Nat.lt_succ_of_le (Nat.min_le_left _ _)

theorem stepDuration_eq (cfg : Config) (template amount bpm : BitVec 8) (i : BitVec 4) :
    stepDuration cfg template amount (baseDuration cfg bpm) i =
      BitVec.ofInt 16 (durationNumber cfg template amount (baseNumber cfg bpm.toNat) i) := by
  rw [stepDuration, toNat_baseDuration]
  rfl

/-- Settles O37: the first step writes the parameters and entry 0, each later step the next entry, the step of entry 15 ends. -/
theorem clkUpdateRewritesTheTableEntryByEntry : Obligations.ClkUpdateRewritesTheTableEntryByEntry := by
  intro bpm template amount s hbpm htemplate base entry table clk
  have hclk (j : Nat) : withEntries config (withParameters config s.clk bpm template amount) j = clk j := by
    have hentry (i : Fin 16) : stepDuration config template amount (baseDuration config bpm) (BitVec.ofNat 4 i) = entry i :=
      stepDuration_eq config template amount bpm _
    simp only [withEntries, withParameters, hentry]
    rfl
  have hexec : exec (.clkUpdate bpm template amount) s =
      .next (updated s (withParameters config s.clk bpm template amount) 0) := by
    change Host.Outcome.next (s.withOperand (legalUpdate config bpm template) _) = _
    have hbegin : s.clk.beginUpdate config bpm template amount =
        withEntries config (withParameters config s.clk bpm template amount) 0 := writeDuration_zero config _
    rw [legalUpdate_of_range hbpm htemplate, State.withOperand_some, hbegin]
    rfl
  refine ⟨_, hexec, fun j hj => ?later, ?last⟩
  case later =>
    rw [continued_updated s _ hj, updated, hclk]
  case last =>
    have hprev : (State.continueC config)^[14] (updated s (withParameters config s.clk bpm template amount) 0) = updated s _ 14 :=
      continued_updated s _ (by decide)
    rw [continued, Function.iterate_succ_apply', hprev, continueC_updated_last, hclk]

/-! ## Ticks and events (R175) -/

/-- Settles O38: the two cases of a tick, as numbers. -/
theorem clkTickCountsToTheStepDuration : Obligations.ClkTickCountsToTheStepDuration := by
  intro s c
  have hc : (s.clk.cnt + 1).toNat = c := BitVec.toNat_add _ _
  have hcnt : s.clk.cnt + 1 = BitVec.ofNat 16 c := by rw [← hc, BitVec.ofNat_toNat, BitVec.setWidth_eq]
  have hevents : s.clk.events + 1 = BitVec.ofNat 8 (s.clk.events.toNat + 1) := by
    rw [BitVec.ofNat_add, BitVec.ofNat_toNat, BitVec.setWidth_eq]; rfl
  have hexec : exec .clkTick s = .next (State.reply { s with clk := s.clk.tick } .T 0) := rfl
  rw [hexec]
  rcases Clk.tick_cases s.clk with ⟨hreached, heq⟩ | ⟨hbelow, heq⟩
  · rw [BitVec.le_def, hc] at hreached
    exact ⟨fun _ => by rw [heq, hevents], fun hlt => by omega⟩
  · rw [BitVec.lt_def, hc] at hbelow
    exact ⟨fun hle => by omega, fun _ => by rw [heq, hcnt]⟩

/-- A count that fills its divisor starts the next multiple. -/
theorem succ_div_mod_of_full {n d : Nat} (hpos : 0 < d) (h : n % d + 1 = d) : (n + 1) / d = n / d + 1 ∧ (n + 1) % d = 0 := by
  have hn : n % d + d * (n / d) = n := Nat.mod_add_div n d
  exact (Nat.div_mod_unique hpos).2 ⟨by rw [Nat.mul_succ]; omega, hpos⟩

/-- A count with room left stays in its multiple. -/
theorem succ_div_mod_of_room {n d : Nat} (hpos : 0 < d) (h : n % d + 1 < d) : (n + 1) / d = n / d ∧ (n + 1) % d = n % d + 1 := by
  have hn : n % d + d * (n / d) = n := Nat.mod_add_div n d
  exact (Nat.div_mod_unique hpos).2 ⟨by omega, h⟩

/-- The clock `n` ticks after an event, its current step lasting `d` ticks. -/
def afterTicks (c : Clk) (d n : Nat) : Clk :=
  { c with cnt := BitVec.ofNat 16 (n % d), events := c.events + BitVec.ofNat 8 (n / d) }

/-- One tick more: the count restarts with an event exactly where `d` divides the number of ticks. -/
theorem tick_afterTicks {c : Clk} {d : Nat} (hd : c.dur[c.gidx.toNat].toNat = d) (hpos : 1 ≤ d) (n : Nat) :
    (afterTicks c d n).tick = afterTicks c d (n + 1) := by
  have hd16 : d < 2 ^ 16 := hd ▸ BitVec.isLt _
  have hmod : n % d < d := Nat.mod_lt _ hpos
  have hcnt : ((afterTicks c d n).cnt + 1).toNat = n % d + 1 := by
    change (BitVec.ofNat 16 (n % d) + 1).toNat = _
    rw [BitVec.toNat_add, BitVec.toNat_ofNat]
    change (n % d % 2 ^ 16 + 1) % 2 ^ 16 = _
    omega
  have hdur : (afterTicks c d n).dur[(afterTicks c d n).gidx.toNat].toNat = d := hd
  rcases Clk.tick_cases (afterTicks c d n) with ⟨hreached, heq⟩ | ⟨hbelow, heq⟩
  · rw [BitVec.le_def, hcnt, hdur] at hreached
    obtain ⟨hdiv, hrem⟩ := succ_div_mod_of_full hpos (n := n) (by omega)
    rw [heq, afterTicks, afterTicks, hdiv, hrem, BitVec.ofNat_add, ← BitVec.add_assoc]
    rfl
  · rw [BitVec.lt_def, hcnt, hdur] at hbelow
    obtain ⟨hdiv, hrem⟩ := succ_div_mod_of_room hpos hbelow
    rw [heq, afterTicks, afterTicks, hdiv, hrem, BitVec.ofNat_add]
    rfl

/-- Settles O39: by induction on the ticks, from a count of 0. -/
theorem everyDthTickIsAnEvent : Obligations.EveryDthTickIsAnEvent := by
  intro c n hpos hcnt
  change Clk.tick^[n] c = afterTicks c _ n
  induction n with
  | zero =>
    rw [afterTicks, Nat.zero_mod, Nat.zero_div, Function.iterate_zero_apply]
    have hevents : c.events + BitVec.ofNat 8 0 = c.events := BitVec.add_zero _
    have hcount : c.cnt = BitVec.ofNat 16 0 := hcnt
    rw [hevents, ← hcount]
  | succ n ih => rw [Function.iterate_succ_apply', ih, tick_afterTicks rfl hpos]

/-! ## CLK.COUNT (R177) -/

/-- The clock with its step counters as `t` six-tick counts and `p` prescaler counts make them. -/
def atCounts (c : Clk) (t p : Nat) : Clk :=
  { c with
    tick6 := BitVec.ofNat 3 (t % 6)
    gidx := BitVec.ofNat 4 (c.gidx.toNat + t / 6)
    pre := BitVec.ofNat 3 (p % c.res.toNat) }

/-- Counters within their ranges are at their own counts. -/
theorem atCounts_self {c : Clk} (htick6 : c.tick6.toNat ≤ 5) (hpre : c.pre.toNat < c.res.toNat) :
    atCounts c c.tick6.toNat c.pre.toNat = c := by
  have hmod : c.tick6.toNat % 6 = c.tick6.toNat := Nat.mod_eq_of_lt (by omega)
  have hdiv : c.tick6.toNat / 6 = 0 := Nat.div_eq_of_lt (by omega)
  simp [atCounts, hmod, hdiv, Nat.mod_eq_of_lt hpre]

/-- A three-bit counter below 6, advanced. -/
theorem toNat_counter_succ {k : Nat} (h : k < 6) : (BitVec.ofNat 3 k + 1).toNat = k + 1 := by
  rw [BitVec.toNat_add, BitVec.toNat_ofNat]
  change (k % 2 ^ 3 + 1) % 2 ^ 3 = _
  omega

/-- The six-tick counter and the groove index move on together. -/
theorem advance_tick6_gidx (c : Clk) (t p : Nat) :
    (atCounts c t p).advance.1.tick6 = BitVec.ofNat 3 ((t + 1) % 6) ∧
    (atCounts c t p).advance.1.gidx = BitVec.ofNat 4 (c.gidx.toNat + (t + 1) / 6) := by
  have hnum := toNat_counter_succ (Nat.mod_lt t (show 6 > 0 by decide))
  have hfull : BitVec.ofNat 3 (t % 6) + 1 = 6 ↔ t % 6 + 1 = 6 := by rw [← BitVec.toNat_inj, hnum]; rfl
  change (if BitVec.ofNat 3 (t % 6) + 1 = 6 then (0 : BitVec 3) else BitVec.ofNat 3 (t % 6) + 1) = _ ∧
    (if BitVec.ofNat 3 (t % 6) + 1 = 6 then BitVec.ofNat 4 (c.gidx.toNat + t / 6) + 1 else BitVec.ofNat 4 (c.gidx.toNat + t / 6)) = _
  by_cases h : t % 6 + 1 = 6
  · obtain ⟨hdiv, hmod⟩ := succ_div_mod_of_full (by decide) h
    rw [if_pos (hfull.2 h), if_pos (hfull.2 h), hdiv, hmod, ← Nat.add_assoc, BitVec.ofNat_add _ 1]
    exact ⟨rfl, rfl⟩
  · obtain ⟨hdiv, hmod⟩ := succ_div_mod_of_room (show 0 < 6 by decide) (n := t) (by omega)
    rw [if_neg (mt hfull.1 h), if_neg (mt hfull.1 h), hdiv, hmod, BitVec.ofNat_add _ 1]
    exact ⟨rfl, rfl⟩

/-- The prescaler restarts with an event exactly where the resolution divides its count. -/
theorem advance_pre {c : Clk} (hpos : 0 < c.res.toNat) (hres : c.res.toNat ≤ 6) (t p : Nat) :
    (atCounts c t p).advance.1.pre = BitVec.ofNat 3 ((p + 1) % c.res.toNat) ∧
    (if (atCounts c t p).advance.2 = true then 1 else 0) + p / c.res.toNat = (p + 1) / c.res.toNat := by
  have hlt := Nat.mod_lt p hpos
  have hnum := toNat_counter_succ (k := p % c.res.toNat) (by omega)
  have hevent : (atCounts c t p).advance.2 = decide (c.res.toNat ≤ p % c.res.toNat + 1) :=
    congrArg (fun k => decide (c.res.toNat ≤ k)) hnum
  have hpre : (atCounts c t p).advance.1.pre =
      if (atCounts c t p).advance.2 = true then 0 else BitVec.ofNat 3 (p % c.res.toNat) + 1 := rfl
  rw [hpre, hevent]
  by_cases h : p % c.res.toNat + 1 = c.res.toNat
  · obtain ⟨hdiv, hmod⟩ := succ_div_mod_of_full hpos h
    rw [if_pos (decide_eq_true (by omega)), if_pos (decide_eq_true (by omega)), hdiv, hmod]
    exact ⟨rfl, Nat.add_comm _ _⟩
  · obtain ⟨hdiv, hmod⟩ := succ_div_mod_of_room hpos (n := p) (by omega)
    have hno : ¬ decide (c.res.toNat ≤ p % c.res.toNat + 1) = true := by rw [decide_eq_true_eq]; omega
    rw [if_neg hno, if_neg hno, hdiv, hmod, BitVec.ofNat_add _ 1]
    exact ⟨rfl, Nat.zero_add _⟩

/-- One internal tick moves every count on by one. -/
theorem advance_atCounts {c : Clk} (hpos : 0 < c.res.toNat) (hres : c.res.toNat ≤ 6) (t p : Nat) :
    (atCounts c t p).advance.1 = atCounts c (t + 1) (p + 1) := by
  obtain ⟨htick6, hgidx⟩ := advance_tick6_gidx c t p
  obtain ⟨hpre, -⟩ := advance_pre hpos hres t p
  have hframe : (atCounts c t p).advance.1 = { c with
      tick6 := (atCounts c t p).advance.1.tick6
      gidx := (atCounts c t p).advance.1.gidx
      pre := (atCounts c t p).advance.1.pre } := rfl
  rw [hframe, htick6, hgidx, hpre]
  rfl

/-- The events of a drain are the multiples of the resolution that the prescaler count passes. -/
theorem drain_atCounts {c : Clk} (hpos : 0 < c.res.toNat) (hres : c.res.toNat ≤ 6) (t p n : Nat) :
    ((atCounts c t p).drain n).1 = atCounts c (t + n) (p + n) ∧
    ((atCounts c t p).drain n).2 + p / c.res.toNat = (p + n) / c.res.toNat := by
  induction n generalizing t p with
  | zero => exact ⟨rfl, Nat.zero_add _⟩
  | succ n ih =>
    obtain ⟨hclk, hevents⟩ := ih (t + 1) (p + 1)
    obtain ⟨-, hfirst⟩ := advance_pre hpos hres t p
    rw [Clk.drain_succ, advance_atCounts hpos hres]
    have ht : t + (n + 1) = t + 1 + n := by omega
    have hp : p + (n + 1) = p + 1 + n := by omega
    rw [ht, hp]
    exact ⟨hclk, by rw [← hevents, ← hfirst]; omega⟩

/-- Settles O40: the exchange, and the drain of the events counted in closed form. -/
theorem clkCountDrainsTheEvents : Obligations.ClkCountDrainsTheEvents := by
  refine ⟨fun _ => rfl, fun s n hctl htick6 hpre hres => ?_⟩
  have hpos : 0 < s.clk.res.toNat := by omega
  obtain ⟨hclk, hevents⟩ := drain_atCounts hpos hres s.clk.tick6.toNat s.clk.pre.toNat n.toNat
  rw [atCounts_self htick6 hpre] at hclk hevents
  rw [Nat.div_eq_of_lt hpre, Nat.add_zero] at hevents
  rw [State.continueC, hctl]
  change s.finishClkCount n = _
  rw [State.finishClkCount, hclk, hevents]
  rfl

/-- A drain neither reads nor writes the tick counter and the events. -/
theorem drain_withTicks (c : Clk) (cnt : BitVec 16) (events : BitVec 8) (n : Nat) :
    Clk.drain { c with cnt := cnt, events := events } n = ({ (c.drain n).1 with cnt := cnt, events := events }, (c.drain n).2) := by
  induction n generalizing c with
  | zero => rfl
  | succ n ih =>
    exact congrArg (fun x => (x.1, (if c.advance.2 = true then 1 else 0) + x.2)) (ih c.advance.1)

/-- Settles O41: step B drains the count that step A took, whatever a tick has written since. -/
theorem tickInsideCountIsKept : Obligations.TickInsideCountIsKept := by
  intro s t u ht hu
  cases ht; cases hu
  have hdrain := (congrArg (fun c => Clk.drain c s.clk.events.toNat) (tick_frame { s.clk with events := 0 })).trans
    (drain_withTicks { s.clk with events := 0 } _ _ _)
  refine ⟨?response, ?clock, ?event⟩
  case response => exact congrArg (fun d => { s.portC with response := some ⟨BitVec.ofNat 48 d.2, false⟩ }) hdrain
  case clock => exact congrArg Prod.fst hdrain
  case event =>
    change (Clk.tick { s.clk with events := 0 }).events.toNat = _
    rcases Clk.tick_cases { s.clk with events := 0 } with ⟨hreached, heq⟩ | ⟨hbelow, heq⟩
    · rw [heq, if_pos hreached]; rfl
    · rw [heq, if_neg (BitVec.not_le.2 hbelow)]; rfl

/-! ## The tempo (R179) -/

/-- Amount 0 leaves the base duration unswung. -/
theorem stepDuration_amount_zero (cfg : Config) (template : BitVec 8) {base : BitVec 16} (hbase : 1 ≤ base.toNat) (i : BitVec 4) :
    stepDuration cfg template 0 base i = base := by
  have hlt := base.isLt
  have hswing : asr ((cfg.grooveLut template i).toInt * (0 : BitVec 8).toNat * base.toNat) 16 = 0 := by simp [asr]
  have hclamp : clamp ((base.toNat : Int) + 0) 1 65535 = base.toNat := by unfold clamp; omega
  rw [stepDuration, hswing, hclamp, BitVec.ofInt_natCast, BitVec.ofNat_toNat, BitVec.setWidth_eq]

/-- Settles O42: within the bounds neither the saturation nor the clamp applies, and the rounding is half up. -/
theorem tempoIsTheRoundedBaseDuration : Obligations.TempoIsTheRoundedBaseDuration := by
  intro cfg template i hlow hhigh base
  have hbase : base = min 65535 ((cfg.tempoFactor + 2 * 120) / (4 * 120)) := toNat_baseDuration cfg 120
  refine ⟨?duration, ?bounds⟩
  case duration => rw [stepDuration_amount_zero cfg template (by change 1 ≤ base; omega)]
  case bounds => omega

end Sys2Proof.Proofs.ClkCommands
end

section
/-! PROOFS. The commands of 43_glide.md and 44_cvdac.md: glide, set-up, ring counts, write and read, and the saturation of the CVs. -/

namespace Sys2Proof.Proofs.CvCommands

open Sys2Proof Sys2Proof.Machine Sys2Proof.Claims Sys2Proof.Proofs.Glide Sys2Proof.Proofs.Steps Sys2Proof.Proofs.EveryStep

/-! ## Glide (43_glide.md section 2) -/

/-- A start snaps where no glide is wanted, there is no prior pitch, or the increment is 0 (R193). -/
theorem start_of_snap {g : Gld} {wanted : Bool} (h : wanted = false ∨ g.source = 0 ∨ g.inc = 0) (target : BitVec 16) :
    g.start target wanted = { g with source := target, target := target, counter := 0 } := by
  simp only [Gld.start, if_pos h]

/-- Else it glides from where the pitch stands. -/
theorem start_of_glide {g : Gld} {wanted : Bool} (h : ¬ (wanted = false ∨ g.source = 0 ∨ g.inc = 0)) (target : BitVec 16) :
    g.start target wanted = { g with source := mix16 g.source g.target g.counter, target := target, counter := 0 } := by
  simp only [Gld.start, if_neg h]
  rfl

theorem exec_gldStart (s : State) (target : BitVec 16) (g : Bool) :
    exec (.gldStart target g) s = .next (State.reply { s with gld := s.gld.start target g } .C 0) := rfl

theorem exec_gldRender (s : State) :
    exec .gldRender s = .next (State.reply { s with gld := s.gld.render } .C (s.gld.render.pitch.setWidth 48)) := rfl

/-- A render without overflow, in the words of R195. -/
theorem render_of_room {g : Gld} (h : g.counter.toNat + g.inc.toNat < 2 ^ 16) :
    g.render = { g with counter := g.counter + g.inc, pitch := mix16 g.source g.target (g.counter + g.inc) } := by
  rcases Gld.ramp_cases g with ⟨-, heq⟩ | ⟨hover, -⟩
  · rw [Gld.render, heq]; rfl
  · omega

/-- Settles O43: set-up, both kinds of start, both kinds of render. -/
theorem gldCommands : Obligations.GldCommands := by
  refine fun s x g => ⟨rfl, rfl, fun hsnap => ?snap, fun hg hsource hinc => ?glide, fun hroom => ?advances, fun hover => ?arrives⟩
  case snap => rw [exec_gldStart, start_of_snap hsnap]
  case glide =>
    have hglide : ¬ (g = false ∨ s.gld.source = 0 ∨ s.gld.inc = 0) := by
      rintro (h | h | h)
      · rw [hg] at h; cases h
      · exact hsource h
      · exact hinc h
    rw [exec_gldStart, start_of_glide hglide]
  case advances => rw [exec_gldRender, render_of_room hroom]
  case arrives => rw [exec_gldRender, render_arrives hover]; rfl

/-! ## Set-up and counts (44_cvdac.md sections 2 to 4) -/

/-- Settles O46: five commands without a check, and CVD.SETIN on each of the four channels. -/
theorem cvdSetUpAndLock : Obligations.CvdSetUpAndLock := fun _ _ _ _ _ _ _ _ _ => ⟨rfl, rfl, rfl, rfl, rfl, rfl, rfl, rfl⟩

/-- Settles O47: the two counts are returned, and modulo 4 they share the three samples of the ring. -/
theorem readableAndWritableSumToThree : Obligations.ReadableAndWritableSumToThree := by
  refine fun s => ⟨?readable, ?writable, ?count, ?sum⟩
  case readable => rw [BitVec.ofNat_toNat]; rfl
  case writable => rw [BitVec.ofNat_toNat]; rfl
  case count =>
    unfold Cvd.readable
    bv_omega
  case sum =>
    unfold Cvd.readable Cvd.writable
    bv_omega

/-! ## Write and read (R206, R208) -/

/-- The ring is full where one more sample would make the indices meet. -/
theorem writable_eq_zero_iff (c : Cvd) : c.writable = 0 ↔ c.wptr + 1 = c.rptr := by
  unfold Cvd.writable
  bv_omega

theorem readable_eq_zero_iff (c : Cvd) : c.readable = 0 ↔ c.wptr = c.rptr := by
  unfold Cvd.readable
  bv_omega

theorem exec_cvdWrite (s : State) :
    exec .cvdWrite s = .next (if s.cvd.writable = 0 then s.reject .C .ringFull else State.reply { s with cvd := s.cvd.write config } .C 0) :=
  rfl

/-- Settles O48: with room the sample is stored, the clipped values as the statement writes them; a full ring rejects. -/
theorem cvdWriteStoresTheClippedSample : Obligations.CvdWriteStoresTheClippedSample := by
  intro s x pitch scale q
  have hsample : s.cvd.sampleOf config = q := by
    have hscale : (if pitch < config.pitchRef then x.scaleLow else x.scaleHigh).toNat = scale := apply_ite BitVec.toNat _ _ _
    have hvco : s.cvd.calPitch config pitch = q.vco := by
      change clip12 (x.offset.toInt +
        asr ((pitch - config.pitchRef) * (if pitch < config.pitchRef then x.scaleLow else x.scaleHigh).toNat) 14) = _
      rw [hscale]
      rfl
    exact congrArg (fun v => { q with vco := v }) hvco
  refine ⟨fun hroom => ?stored, fun hfull => ?full⟩
  case stored =>
    rw [exec_cvdWrite, if_neg (mt (writable_eq_zero_iff s.cvd).1 hroom), Cvd.write, hsample]
  case full => rw [exec_cvdWrite, if_pos ((writable_eq_zero_iff s.cvd).2 hfull)]

/-- The packed image as the statements write it (R205). -/
theorem pack_eq_ofNat (q : DacState) :
    pack q = BitVec.ofNat 48 (q.vco.toNat + q.pw.toNat * 2 ^ 12 + q.vcf.toNat * 2 ^ 24 + q.vca.toNat * 2 ^ 36) := by
  rw [← pack_toNat, BitVec.ofNat_toNat, BitVec.setWidth_eq]

theorem exec_cvdRead (s : State) :
    exec .cvdRead s = .next (State.reply
      { s with cvd := s.cvd.read, sys := { s.sys with underrun := s.sys.underrun || s.cvd.underruns } } .T (pack s.cvd.read.out)) := rfl

/-- A read with the voice not locked and a sample waiting. -/
theorem read_of_waiting {c : Cvd} (hopen : c.locked = false) (hsome : c.wptr ≠ c.rptr) :
    c.read = { c with out := c.slot[c.rptr.toNat], rptr := c.rptr + 1 } := by
  rw [Cvd.read, if_neg (by rw [hopen]; decide), if_neg (mt (readable_eq_zero_iff c).1 hsome)]

/-- Where a read does not underrun the SYS registers stay. -/
theorem underrun_of_served {s : State} (h : ¬ (s.cvd.locked = false ∧ s.cvd.wptr = s.cvd.rptr)) :
    ({ s.sys with underrun := s.sys.underrun || s.cvd.underruns } : Sys) = s.sys := by
  have hno : s.cvd.underruns = false := Bool.eq_false_iff.2 (mt (underruns_iff s.cvd).1 h)
  rw [hno, Bool.or_false]

/-- Settles O49: the three cases of a read. -/
theorem cvdReadOutputsTheOldestSample : Obligations.CvdReadOutputsTheOldestSample := by
  intro s x packed slot
  have hpack (q : DacState) : pack q = packed q := pack_eq_ofNat q
  refine ⟨fun hlocked => ?override, fun hopen hsome => ?oldest, fun hopen hempty => ?underrun⟩
  case override =>
    have hserved : ¬ (s.cvd.locked = false ∧ s.cvd.wptr = s.cvd.rptr) := fun ⟨h, _⟩ => by rw [hlocked] at h; cases h
    have hread : s.cvd.read = { s.cvd with out := s.cvd.override } := if_pos hlocked
    rw [exec_cvdRead, underrun_of_served hserved, hread, hpack]
  case oldest =>
    have hserved : ¬ (s.cvd.locked = false ∧ s.cvd.wptr = s.cvd.rptr) := fun ⟨_, h⟩ => hsome h
    rw [exec_cvdRead, underrun_of_served hserved, read_of_waiting hopen hsome, hpack]
  case underrun =>
    have hunder : s.cvd.underruns = true := (underruns_iff s.cvd).2 ⟨hopen, hempty⟩
    have hread : s.cvd.read = s.cvd := by
      rw [Cvd.read, if_neg (by rw [hopen]; decide), if_pos ((readable_eq_zero_iff s.cvd).2 hempty)]
    rw [exec_cvdRead, hunder, hread, hpack, Bool.or_true]

/-! ## Saturation and the calibrated pitch (R203, R214) -/

theorem clip12_mono {x y : Int} (h : x ≤ y) : (clip12 x).toNat ≤ (clip12 y).toNat := by
  have hx := toInt_clip12 x
  have hy := toInt_clip12 y
  unfold clamp at hx hy
  omega

/-- The pitch before clipping: two segments that leave the offset on either side of the reference. -/
def rawPitch (cfg : Config) (c : Cvd) (x : Int) : Int :=
  c.offset.toInt + asr ((x - cfg.pitchRef) * ((if x < cfg.pitchRef then c.scaleLow else c.scaleHigh).toNat : Int)) 14

theorem calPitch_eq_clip12 (cfg : Config) (c : Cvd) (x : Int) : c.calPitch cfg x = clip12 (rawPitch cfg c x) := rfl

theorem asr_mono {x y : Int} (h : x ≤ y) (n : Nat) : asr x n ≤ asr y n := Int.ediv_le_ediv (by positivity) h

/-- Both scales are unsigned, so each segment rises, and across the reference the sign decides. -/
theorem rawPitch_mono (cfg : Config) (c : Cvd) {x y : Int} (h : x ≤ y) : rawPitch cfg c x ≤ rawPitch cfg c y := by
  refine Int.add_le_add_left (asr_mono ?_ 14) _
  by_cases hx : x < cfg.pitchRef
  · rw [if_pos hx]
    by_cases hy : y < cfg.pitchRef
    · rw [if_pos hy]
      exact Int.mul_le_mul_of_nonneg_right (by omega) (Int.natCast_nonneg _)
    · rw [if_neg hy]
      exact (Int.mul_nonpos_of_nonpos_of_nonneg (by omega) (Int.natCast_nonneg _)).trans
        (Int.mul_nonneg (by omega) (Int.natCast_nonneg _))
  · rw [if_neg hx, if_neg (by omega)]
    exact Int.mul_le_mul_of_nonneg_right (by omega) (Int.natCast_nonneg _)

theorem rawPitch_reference (cfg : Config) (c : Cvd) : rawPitch cfg c cfg.pitchRef = c.offset.toInt := by
  simp [rawPitch, asr]

/-- Settles O50: clipping as a clamp, and the monotone pitch before it. -/
theorem cvsSaturateAndThePitchIsMonotone : Obligations.CvsSaturateAndThePitchIsMonotone := by
  intro cfg c x y
  have hclip := toInt_clip12 x
  unfold clamp at hclip
  refine ⟨fun _ => by omega, fun _ => by omega, fun _ _ => by omega, fun hxy => ?monotone, ?reference⟩
  case monotone =>
    rw [calPitch_eq_clip12, calPitch_eq_clip12]
    exact clip12_mono (rawPitch_mono cfg c hxy)
  case reference => rw [calPitch_eq_clip12, rawPitch_reference]

end Sys2Proof.Proofs.CvCommands
end

section
/-! PROOFS. The commands of 45_voice.md: set-up, gate-on and note-on, the sample, and VOX.REFRESH turn by turn. -/

namespace Sys2Proof.Proofs.VoxCommands

open Sys2Proof Sys2Proof.Machine Sys2Proof.Claims Sys2Proof.Proofs.Steps Sys2Proof.Proofs.CvCommands

/-- Settles O52: the four commands write the voice registers alone. -/
theorem voxSetUpAndRetrigger : Obligations.VoxSetUpAndRetrigger := fun _ _ _ _ => ⟨rfl, rfl, rfl, rfl⟩

/-! ## Gate-on and note-on (R221, R224) -/

/-- The voice is gated while its first envelope is before RELEASE. -/
theorem gated_iff (s : State) : s.gated = true ↔ s.env[0].seg = .attack ∨ s.env[0].seg = .decay ∨ s.env[0].seg = .sustain := by
  unfold State.gated Env.gate
  cases s.env[0].seg <;> decide

/-- What a gate-on leaves in an envelope (40_env.md R133). -/
theorem trigger_attack (x : Env) : x.trigger .attack = { x with seg := .attack, phase := 0, value := 0, a := 0, b := 65535 } := rfl

theorem mapAll_trigger_attack (v : Vector Env nEnv) :
    mapAll (fun e => e.trigger .attack) v = v.map fun x => { x with seg := .attack, phase := 0, value := 0, a := 0, b := 65535 } := by
  rw [mapAll_eq_map, funext trigger_attack]

/-- The retrigger flag is raised where the voice is gated. -/
theorem retrig_or (flag : Bool) {gated : Bool} {p : Prop} [Decidable p] (h : gated = true ↔ p) :
    (flag || gated) = if p then true else flag := by
  by_cases hp : p
  · rw [if_pos hp, h.2 hp, Bool.or_true]
  · rw [if_neg hp, Bool.eq_false_iff.2 (mt h.1 hp), Bool.or_false]

/-- Settles O53: every envelope triggered, and the flag. -/
theorem gateOnTriggersAllEnvelopes : Obligations.GateOnTriggersAllEnvelopes := by
  intro s gated
  change Host.Outcome.next (State.reply { s with
    env := mapAll (fun e => e.trigger .attack) s.env, vox := { s.vox with retrig := s.vox.retrig || s.gated } } .C 0) = _
  rw [mapAll_trigger_attack, retrig_or s.vox.retrig (gated_iff s)]

/-- A start glides exactly where it is wanted, there is a prior pitch and the increment is not 0 (43_glide.md R193). -/
theorem start_eq (g : Gld) (target : BitVec 16) {wanted : Bool} {p : Prop} [Decidable p]
    (h : p ↔ wanted = true ∧ g.source ≠ 0 ∧ g.inc ≠ 0) :
    g.start target wanted = { g with
      source := if p then mix16 g.source g.target g.counter else target, target := target, counter := 0 } := by
  have hsnap : (wanted = false ∨ g.source = 0 ∨ g.inc = 0) ↔ ¬ p := by
    rw [h, ← Bool.not_eq_true]
    tauto
  by_cases hp : p
  · rw [if_pos hp, start_of_glide (fun hs => hsnap.1 hs hp)]
  · rw [if_neg hp, start_of_snap (hsnap.2 hp)]

/-- Settles O55: the glide, the merged accent, and the gate-on of a note that is not legato; `slide` is no argument of the operation. -/
theorem noteOnStartsGlideAndEnvelopes : Obligations.NoteOnStartsGlideAndEnvelopes := by
  intro s note velocity slide accent legato pitch vel glides gated
  have hstart : s.gld.start pitch (s.vox.legatoMode || legato) = { s.gld with
      source := if glides then mix16 s.gld.source s.gld.target s.gld.counter else pitch, target := pitch, counter := 0 } :=
    start_eq s.gld pitch (by rw [Bool.or_eq_true])
  have hretrig := retrig_or s.vox.retrig (gated_iff s)
  cases legato with
  | true =>
    change Host.Outcome.next (State.reply { s with
      gld := s.gld.start pitch (s.vox.legatoMode || true), vox := { s.vox with velocity := vel, accent := accent } } .C 0) = _
    rw [hstart, if_pos rfl, if_neg (c := true = false ∧ gated) (by simp)]
  | false =>
    change Host.Outcome.next (State.reply { s with
      gld := s.gld.start pitch (s.vox.legatoMode || false)
      vox := { s.vox with velocity := vel, accent := accent, retrig := s.vox.retrig || s.gated }
      env := mapAll (fun e => e.trigger .attack) s.env } .C 0) = _
    rw [hstart, mapAll_trigger_attack, hretrig]
    simp only [true_and, Bool.false_eq_true, if_false]
    rfl

/-! ## The sample (R228) -/

theorem mapAll_three {α β : Type} (f : α → β) (v : Vector α 3) : mapAll f v = #v[f v[0], f v[1], f v[2]] := by
  refine Vector.ext fun i hi => ?_
  rw [getElem_mapAll]
  match i, hi with
  | 0, _ => rfl
  | 1, _ => rfl
  | 2, _ => rfl

theorem exec_voxSample_of_room {s : State} (h : s.cvd.writable ≠ 0) :
    exec .voxSample s = .next ((s.sample config).reply .C (pack (s.sample config).cvd.slot[s.cvd.wptr.toNat])) :=
  congrArg Host.Outcome.next (if_neg h)

/-- Settles O56: the sources in order, the slot just written, and the full ring. -/
theorem sampleRendersEverySourceOnce : Obligations.SampleRendersEverySourceOnce := by
  intro s g e0 e1 e2 l0 l1 x sat c q
  have henv : mapAll (Env.render config) s.env = #v[e0, e1, e2] := mapAll_three _ _
  have hvalues : mapAll (fun e => e.value) #v[e0, e1, e2] = #v[e0.value, e1.value, e2.value] := mapAll_three _ _
  have hsample : s.sample config = { s with
      gld := g, env := #v[e0, e1, e2], lfo := #v[l0.1, l1.1], rng := l1.2
      cvd := { c with slot := c.slot.set c.wptr.toNat q, wptr := c.wptr + 1 } } := by
    rw [State.sample, henv, hvalues]
    rfl
  refine ⟨fun hroom => ?stored, fun hfull => ?full⟩
  case stored =>
    have hslot : (c.slot.set c.wptr.toNat q)[s.cvd.wptr.toNat] = q := Vector.getElem_set_self _
    rw [exec_voxSample_of_room (mt (writable_eq_zero_iff s.cvd).1 hroom), hsample]
    exact congrArg (fun r => Host.Outcome.next (State.reply _ .C (pack r))) hslot
  case full => exact congrArg Host.Outcome.next (if_pos ((writable_eq_zero_iff s.cvd).2 hfull))

/-! ## VOX.REFRESH (R229) -/

theorem writable_sample (s : State) : (s.sample config).cvd.writable = s.cvd.writable - 1 := by
  change s.cvd.rptr - (s.cvd.wptr + 1) - 1 = s.cvd.rptr - s.cvd.wptr - 1 - 1
  bv_omega

/-- A sample neither reads nor writes the control state. -/
theorem sample_withCtl (s : State) (k : Control) : State.sample config { s with ctl := k } = { s.sample config with ctl := k } := rfl

theorem iterate_sample_withCtl (s : State) (k : Control) (n : Nat) :
    (State.sample config)^[n] { s with ctl := k } = { (State.sample config)^[n] s with ctl := k } := by
  induction n with
  | zero => rfl
  | succ n ih => rw [Function.iterate_succ_apply', Function.iterate_succ_apply', ih, sample_withCtl]

/-- Each sample takes one place, and none is left after as many as there were. -/
theorem writable_iterate_sample {s : State} {n : Nat} (h : s.cvd.writable.toNat = n) :
    ((State.sample config)^[n] s).cvd.writable = 0 := by
  induction n generalizing s with
  | zero => exact BitVec.eq_of_toNat_eq h
  | succ n ih =>
    rw [Function.iterate_succ_apply]
    have hw := writable_sample s
    exact ih (by bv_omega)

/-- A turn after `m` samples, with `n` places left and nothing between: `n` more samples, then the command ends with their number. -/
theorem continued_refreshTurn {s : State} {n : Nat} (h : s.cvd.writable.toNat = n) (m : Nat) :
    continued n (s.refreshTurn config m) = State.reply { (State.sample config)^[n] s with ctl := .idle } .C (BitVec.ofNat 48 (m + n)) := by
  induction n generalizing s m with
  | zero =>
    rcases refreshTurn_cases config s m with ⟨-, heq⟩ | ⟨hroom, -⟩
    · exact heq
    · exact absurd (BitVec.eq_of_toNat_eq h) hroom
  | succ n ih =>
    rcases refreshTurn_cases config s m with ⟨hfull, -⟩ | ⟨-, heq⟩
    · rw [hfull] at h; cases h
    · have hw := writable_sample s
      have hleft : (State.cvd { s.sample config with ctl := .voxRefresh (m + 1) }).writable.toNat = n := by
        change (s.sample config).cvd.writable.toNat = n
        bv_omega
      have hrest := ih hleft (m + 1)
      rw [iterate_sample_withCtl, Nat.add_right_comm m 1 n] at hrest
      rw [heq]
      exact hrest

/-- Settles O57: the first turn is part of the command's step, the others follow. -/
theorem refreshFillsTheRing : Obligations.RefreshFillsTheRing := by
  intro s n full
  have hturns := continued_refreshTurn (s := s) (n := n) rfl 0
  rw [Nat.zero_add] at hturns
  exact ⟨_, rfl, hturns, writable_iterate_sample rfl⟩

/-- Settles O58: the read moves the read index on, so the next turn finds room, and its sample restores the count. -/
theorem readInsideRefreshFreesASlot : Obligations.ReadInsideRefreshFreesASlot := by
  intro s t n hctl hopen hsome ht
  rw [exec_cvdRead, read_of_waiting hopen hsome] at ht
  have hctl' : t.ctl = .voxRefresh n := by cases ht; exact hctl
  have hcvd : t.cvd = { s.cvd with out := s.cvd.slot[s.cvd.rptr.toNat], rptr := s.cvd.rptr + 1 } := by cases ht; rfl
  have hroom : t.cvd.writable ≠ 0 := by
    rw [hcvd]
    change s.cvd.rptr + 1 - s.cvd.wptr - 1 ≠ 0
    bv_omega
  have hturn : t.continueC config = { t.sample config with ctl := .voxRefresh (n + 1) } := by
    rw [State.continueC, hctl']
    exact (refreshTurn_cases config t n).elim (fun ⟨hfull, _⟩ => absurd hfull hroom) (fun ⟨_, heq⟩ => heq)
  refine ⟨hturn, ?_⟩
  rw [hturn]
  change t.cvd.wptr + 1 - t.cvd.rptr = s.cvd.wptr - s.cvd.rptr
  rw [hcvd]
  bv_omega

end Sys2Proof.Proofs.VoxCommands
end
